-- ==== Sys2Proof/Word.lean ====
section
/-! DEFINITION. The bit widths of the machine: bytes, 16-bit words, 12-bit addresses, register numbers. -/

namespace Sys2Proof

/-- A register value, a memory cell, a timer: 8 bits, unsigned (R11, R16, R18). -/
abbrev Byte := BitVec 8

/-- An opcode, I, pc or a stack entry: 16 bits (R13, R14, R15, R60). -/
abbrev Word := BitVec 16

/-- The immediate address nnn of an opcode: 12 bits (R61). -/
abbrev Addr12 := BitVec 12

/-- The number of a general register, 0 to 15 (R11). -/
abbrev Reg := Fin 16

/-- VF, the register that doubles as the flag (R12). -/
abbrev VF : Reg := 15

end Sys2Proof
end

