-- ==== Sys2Proof/Config.lean ====
section
/-! DEFINITION. What is fixed for the machine (R4), the types of its open parameters (R5), and the free inputs of an iteration. -/

namespace Sys2Proof.Config

/-- MEM_SIZE (R4). -/
abbrev memSize : Nat := 4096

/-- PROG_BASE, where the image is loaded and execution starts (R4). -/
abbrev progBase : Nat := 0x200

/-- MAX_IMAGE (R4). -/
abbrev maxImage : Nat := 3584

/-- STACK_DEPTH (R4). -/
abbrev stackDepth : Nat := 16

/-- FX1E_VF_MODE (R5, R141). -/
inductive Fx1eVfMode where
  | off | setOnly | setClear
  deriving DecidableEq, Repr

/-- DRAW_EDGE (R5, R156). -/
inductive DrawEdge where
  | wrap | clip
  deriving DecidableEq, Repr

/-- KEYWAIT_PICK (R5, R170). -/
inductive KeywaitPick where
  | lowest | highest | any
  deriving DecidableEq, Repr

/-- The states of the Debug Controller (R22, R230). -/
inductive Dbg where
  | running | paused | stepPending
  deriving DecidableEq, Repr

/-- The marker of a pressed key: any value but 0, which is the released one (R5, R20; log entry 19). -/
structure PressedMarker where
  val : Nat
  nonzero : 0 < val
  deriving DecidableEq, Repr

/-- The open parameters of R5, which "a model may take ... as an argument": State carries them, reset keeps them and no
step writes them (log entry 3). PTICK is no field: it is the free input `Draw.ptickDue`. -/
structure Params where
  /-- FONT: sixteen glyphs of five rows (R56). -/
  font : Vector (Vector Byte 5) 16
  /-- DBG_RESET (R22). -/
  dbgReset : Dbg
  /-- FX1E_VF_MODE (R141). -/
  fx1eVfMode : Fx1eVfMode
  /-- DRAW_EDGE (R156). -/
  drawEdge : DrawEdge
  /-- KEYWAIT_PICK (R170). -/
  keywaitPick : KeywaitPick
  /-- STRICT_LOW_NIBBLE (R69). -/
  strictLowNibble : Bool
  /-- KEY_PRESSED_MARKER (R20). -/
  keyPressedMarker : PressedMarker
  deriving DecidableEq, Repr

/-- The inputs of one scheduler iteration (R225): `tick_due`, `ptick_due` and the byte `rnd`; `pick` is the draw over the
pressed keys that `LD Vx, K` makes under KEYWAIT_PICK = any (R170). -/
structure Draw where
  tickDue : Bool
  ptickDue : Bool
  rnd : Byte
  pick : Nat
  deriving DecidableEq, Repr, Inhabited

/-- FREE VALUES. The inputs of the k-th iteration for which the environment's schedule says nothing: unconstrained (R9, R24,
R150; U11, U17, U18). It has no body, so no proof can learn a value of it (log entry 1). -/
opaque freeDraw : Nat → Draw

end Sys2Proof.Config
end

