-- ==== Sys2Proof/Decode.lean ====
section
/-! DEFINITION. The decoder of R63, total on any bytes, and after it the encoder of R64. -/

namespace Sys2Proof

/-! ## Fields of an opcode (R61) -/

/-- h = opcode[15:12]. -/
def fieldH (op : Word) : BitVec 4 := op.extractLsb 15 12

/-- x = opcode[11:8], a register number. -/
def fieldX (op : Word) : Reg := (op.extractLsb 11 8 : BitVec 4).toFin

/-- y = opcode[7:4], a register number. -/
def fieldY (op : Word) : Reg := (op.extractLsb 7 4 : BitVec 4).toFin

/-- n = opcode[3:0]. -/
def fieldN (op : Word) : Fin 16 := (op.extractLsb 3 0 : BitVec 4).toFin

/-- nn = opcode[7:0]. -/
def fieldNN (op : Word) : Byte := op.extractLsb 7 0

/-- nnn = opcode[11:0]. -/
def fieldNNN (op : Word) : Addr12 := op.extractLsb 11 0

/-! ## The decoder -/

/-- Why bytes decode to no operation: `unknown` is the UNKNOWN result of R70; `truncated` says that fewer than the two bytes
of an opcode are there (R60). -/
inductive Reject where
  | truncated | unknown
  deriving DecidableEq, Repr

/-- Group 0 (R65): two opcodes matched on all 16 bits, every other one is the legacy call. -/
def decodeGroup0 (op : Word) : Except Reject Instr :=
  if op = 0x00E0#16 then .ok .cls
  else if op = 0x00EE#16 then .ok .ret
  else .ok (.sys (fieldNNN op))

/-- Groups 5 and 9 (R69): the low nibble is examined only under STRICT_LOW_NIBBLE. -/
def decodeXY0 (strict : Bool) (op : Word) (i : Reg → Reg → Instr) : Except Reject Instr :=
  if strict && fieldN op != 0 then .error .unknown else .ok (i (fieldX op) (fieldY op))

/-- Group 8, by the low nibble (R66). -/
def decodeGroup8 (op : Word) : Except Reject Instr :=
  let x := fieldX op
  let y := fieldY op
  match (fieldN op).val with
  | 0x0 => .ok (.ldReg x y)
  | 0x1 => .ok (.orReg x y)
  | 0x2 => .ok (.andReg x y)
  | 0x3 => .ok (.xorReg x y)
  | 0x4 => .ok (.addReg x y)
  | 0x5 => .ok (.subReg x y)
  | 0x6 => .ok (.shr x y)
  | 0x7 => .ok (.subn x y)
  | 0xE => .ok (.shl x y)
  | _ => .error .unknown

/-- Group E, by the low byte (R67). -/
def decodeGroupE (op : Word) : Except Reject Instr :=
  match (fieldNN op).toNat with
  | 0x9E => .ok (.skp (fieldX op))
  | 0xA1 => .ok (.sknp (fieldX op))
  | _ => .error .unknown

/-- Group F, by the low byte (R68). -/
def decodeGroupF (op : Word) : Except Reject Instr :=
  let x := fieldX op
  match (fieldNN op).toNat with
  | 0x07 => .ok (.ldVxDt x)
  | 0x0A => .ok (.ldVxK x)
  | 0x15 => .ok (.ldDtVx x)
  | 0x18 => .ok (.ldStVx x)
  | 0x1E => .ok (.addI x)
  | 0x29 => .ok (.ldF x)
  | 0x33 => .ok (.ldB x)
  | 0x55 => .ok (.ldMemVx x)
  | 0x65 => .ok (.ldVxMem x)
  | _ => .error .unknown

/-- The classification of R63: a function of the 16 bits and of the parameter STRICT_LOW_NIBBLE alone (R60). -/
def decodeWord (strict : Bool) (op : Word) : Except Reject Instr :=
  match (fieldH op).toNat with
  | 0x0 => decodeGroup0 op
  | 0x1 => .ok (.jp (fieldNNN op))
  | 0x2 => .ok (.call (fieldNNN op))
  | 0x3 => .ok (.seByte (fieldX op) (fieldNN op))
  | 0x4 => .ok (.sneByte (fieldX op) (fieldNN op))
  | 0x5 => decodeXY0 strict op .seReg
  | 0x6 => .ok (.ldByte (fieldX op) (fieldNN op))
  | 0x7 => .ok (.addByte (fieldX op) (fieldNN op))
  | 0x8 => decodeGroup8 op
  | 0x9 => decodeXY0 strict op .sneReg
  | 0xA => .ok (.ldI (fieldNNN op))
  | 0xB => .ok (.jpV0 (fieldNNN op))
  | 0xC => .ok (.rnd (fieldX op) (fieldNN op))
  | 0xD => .ok (.drw (fieldX op) (fieldY op) (fieldN op))
  | 0xE => decodeGroupE op
  | 0xF => decodeGroupF op
  | _ => .error .unknown

/-- The opcode two bytes make, big-endian: the first byte is opcode[15:8] (R42). -/
def opcodeOf (hi lo : Byte) : Word := hi ++ lo

/-- The decoder on bytes: it takes the two bytes of one opcode and gives the instruction with the bytes left over. -/
def decode (strict : Bool) : List Byte → Except Reject (Instr × List Byte)
  | hi :: lo :: rest =>
    match decodeWord strict (opcodeOf hi lo) with
    | .ok i => .ok (i, rest)
    | .error r => .error r
  | [_] => .error .truncated
  | [] => .error .truncated

/-! ## The encoder, row by row of R64 -/

/-- Format NNN: a nibble and a 12-bit address. -/
def formNNN (h : BitVec 4) (nnn : Addr12) : Word := h ++ nnn

/-- Format XNN: a nibble, a register and a byte. XSS is the same with the sub-opcode as the byte. -/
def formXNN (h : BitVec 4) (x : Reg) (nn : Byte) : Word := h ++ (BitVec.ofFin x : BitVec 4) ++ nn

/-- Format XYN: a nibble, two registers and a nibble. XYS is the same with the sub-opcode as the last nibble. -/
def formXYN (h : BitVec 4) (x y : Reg) (n : BitVec 4) : Word :=
  h ++ (BitVec.ofFin x : BitVec 4) ++ (BitVec.ofFin y : BitVec 4) ++ n

/-- The opcode of an instruction, in its canonical encoding (the low nibble of `5xy0` and `9xy0` is 0: R69). -/
def encodeWord : Instr → Word
  | .cls => 0x00E0
  | .ret => 0x00EE
  | .sys nnn => formNNN 0x0 nnn
  | .jp nnn => formNNN 0x1 nnn
  | .call nnn => formNNN 0x2 nnn
  | .seByte x nn => formXNN 0x3 x nn
  | .sneByte x nn => formXNN 0x4 x nn
  | .seReg x y => formXYN 0x5 x y 0x0
  | .ldByte x nn => formXNN 0x6 x nn
  | .addByte x nn => formXNN 0x7 x nn
  | .ldReg x y => formXYN 0x8 x y 0x0
  | .orReg x y => formXYN 0x8 x y 0x1
  | .andReg x y => formXYN 0x8 x y 0x2
  | .xorReg x y => formXYN 0x8 x y 0x3
  | .addReg x y => formXYN 0x8 x y 0x4
  | .subReg x y => formXYN 0x8 x y 0x5
  | .shr x y => formXYN 0x8 x y 0x6
  | .subn x y => formXYN 0x8 x y 0x7
  | .shl x y => formXYN 0x8 x y 0xE
  | .sneReg x y => formXYN 0x9 x y 0x0
  | .ldI nnn => formNNN 0xA nnn
  | .jpV0 nnn => formNNN 0xB nnn
  | .rnd x nn => formXNN 0xC x nn
  | .drw x y n => formXYN 0xD x y (BitVec.ofFin n)
  | .skp x => formXNN 0xE x 0x9E
  | .sknp x => formXNN 0xE x 0xA1
  | .ldVxDt x => formXNN 0xF x 0x07
  | .ldVxK x => formXNN 0xF x 0x0A
  | .ldDtVx x => formXNN 0xF x 0x15
  | .ldStVx x => formXNN 0xF x 0x18
  | .addI x => formXNN 0xF x 0x1E
  | .ldF x => formXNN 0xF x 0x29
  | .ldB x => formXNN 0xF x 0x33
  | .ldMemVx x => formXNN 0xF x 0x55
  | .ldVxMem x => formXNN 0xF x 0x65

/-- The two bytes of a word as memory holds them, the high byte first (R42, R55). -/
def wordBytes (w : Word) : List Byte := [w.extractLsb 15 8, w.extractLsb 7 0]

/-- The bytes of an instruction. -/
def encode (i : Instr) : List Byte := wordBytes (encodeWord i)

/-! ## The opcode map as R64 prints it -/

/-- The mask of `5xy0` and `9xy0` (R69). -/
def xy0Mask (strict : Bool) : Word := if strict then 0xF00F else 0xF000

/-- The rows of R64 in match order: (match, mask). -/
def opcodeMap (strict : Bool) : List (Word × Word) := [
   (0x00E0, 0xFFFF), (0x00EE, 0xFFFF), (0x0000, 0xF000), (0x1000, 0xF000), (0x2000, 0xF000), (0x3000, 0xF000), (0x4000, 0xF000),
   (0x5000, xy0Mask strict), (0x6000, 0xF000), (0x7000, 0xF000), (0x8000, 0xF00F), (0x8001, 0xF00F), (0x8002, 0xF00F), (0x8003, 0xF00F),
   (0x8004, 0xF00F), (0x8005, 0xF00F), (0x8006, 0xF00F), (0x8007, 0xF00F), (0x800E, 0xF00F), (0x9000, xy0Mask strict), (0xA000, 0xF000),
   (0xB000, 0xF000), (0xC000, 0xF000), (0xD000, 0xF000), (0xE09E, 0xF0FF), (0xE0A1, 0xF0FF), (0xF007, 0xF0FF), (0xF00A, 0xF0FF),
   (0xF015, 0xF0FF), (0xF018, 0xF0FF), (0xF01E, 0xF0FF), (0xF029, 0xF0FF), (0xF033, 0xF0FF), (0xF055, 0xF0FF), (0xF065, 0xF0FF)]

/-- The first row an opcode matches (opcode AND mask = match), counted from 0 (R64). -/
def firstRow (strict : Bool) (op : Word) : Option Nat := (opcodeMap strict).findIdx? fun r => op &&& r.2 == r.1

/-- The row of R64 an instruction stands in, counted from 0. -/
def rowOf : Instr → Nat
  | .cls => 0
  | .ret => 1
  | .sys _ => 2
  | .jp _ => 3
  | .call _ => 4
  | .seByte _ _ => 5
  | .sneByte _ _ => 6
  | .seReg _ _ => 7
  | .ldByte _ _ => 8
  | .addByte _ _ => 9
  | .ldReg _ _ => 10
  | .orReg _ _ => 11
  | .andReg _ _ => 12
  | .xorReg _ _ => 13
  | .addReg _ _ => 14
  | .subReg _ _ => 15
  | .shr _ _ => 16
  | .subn _ _ => 17
  | .shl _ _ => 18
  | .sneReg _ _ => 19
  | .ldI _ => 20
  | .jpV0 _ => 21
  | .rnd _ _ => 22
  | .drw _ _ _ => 23
  | .skp _ => 24
  | .sknp _ => 25
  | .ldVxDt _ => 26
  | .ldVxK _ => 27
  | .ldDtVx _ => 28
  | .ldStVx _ => 29
  | .addI _ => 30
  | .ldF _ => 31
  | .ldB _ => 32
  | .ldMemVx _ => 33
  | .ldVxMem _ => 34

/-! ## The host's entry to the decoder -/

/-- The instruction the decoder reads from the word `w` of an opcode-table row (bits above `nbits` are 0), under the default
parameters. -/
def decodeTableWord (nbits w : Nat) : Option Instr :=
  match decode Machine.defaultParams.strictLowNibble (wordBytes (BitVec.ofNat 16 (w % 2 ^ nbits))) with
  | .ok (i, _) => some i
  | .error _ => none

end Sys2Proof
end

