-- ==== Sys2Proof/Machine/State.lean ====
section
/-! DEFINITION. The state of the machine as plain data (R10), its notifications and host events, the reasons a step can stop, and reset. -/

namespace Sys2Proof.Machine

open Sys2Proof.Config

/-- MEM (R16, R40) as (address, byte) pairs in one canonical form: addresses strictly rising, no byte equal to what an
unlisted address reads as (`Memory.wf` in Machine/Ops.lean). -/
abbrev Memory := List Host.Cell

/-- FB (R17): `fb[px][py]` is the pixel of column px and row py. -/
abbrev Framebuffer := Vector (Vector Bool 32) 64

/-- The kind an E_ADDR_RANGE report carries (R43, R205). -/
inductive AccessKind where
  | fetch | read | write
  deriving DecidableEq, Repr

/-- The seven error conditions of R201, each with the info its report carries. They are reported and survived: none of them
stops the machine (R200). -/
inductive ErrorCond where
  /-- Code 1 (R202): the opcode. -/
  | unknownOpcode (op : Word)
  /-- Code 2 (R203): the opcode. -/
  | notImplemented (op : Word)
  /-- Code 3 (R204): the target of the dropped call. -/
  | stackOverflow (nnn : Addr12)
  /-- Code 4 (R206); its info is 0. -/
  | stackUnderflow
  /-- Code 5 (R205): the lowest offending address, and the kind of access. -/
  | addrRange (addr : Nat) (kind : AccessKind)
  /-- Code 6 (R207): the length of the image offered, 0 when there was none. -/
  | loadFail (length : Nat)
  /-- Code 7 (R208): the value of Vx. -/
  | keyRange (value : Byte)
  deriving DecidableEq, Repr

/-- The notifications of the core (R236): what it emits, never state it reads. -/
inductive OutEvent where
  /-- report(code, pc, info) (R243). -/
  | report (e : ErrorCond) (pc : Word)
  /-- frame_ready with its copy of FB (R221). -/
  | frameReady (fb : Framebuffer)
  /-- The tone signal (R222). -/
  | beep
  /-- R223. -/
  | periodicTick
  deriving DecidableEq, Repr

/-- The host's events (R236). A key index is any number: one outside 0 to 15 is ignored (R240). -/
inductive HostEvent where
  /-- reset(image), or reset with no image (R237, R260). -/
  | reset (image : Option (List Byte))
  | keySet (k : Nat)
  | keyClear (k : Nat)
  | pause
  | cont
  | step
  deriving DecidableEq, Repr

/-- One entry of the environment's schedule: a host event, or the request to run one iteration with its inputs (R236). -/
inductive EnvEvent where
  | host (e : HostEvent)
  | iterate (d : Draw)
  deriving DecidableEq, Repr

/-- The state. The fields down to `esr` are R10's list; the last five are the model's own. -/
structure State where
  /-- MEM (R16). -/
  mem : Memory
  /-- V0 to VF (R11, R12). -/
  v : Vector Byte 16
  /-- I (R13). -/
  i : Word
  /-- pc (R14). -/
  pc : Word
  /-- STACK (R15). -/
  stack : Vector Word 16
  /-- SP, 0 to 16 (R15). -/
  sp : Fin 17
  /-- FB (R17). -/
  fb : Framebuffer
  /-- DT (R18). -/
  dt : Byte
  /-- ST (R19). -/
  st : Byte
  /-- KEY: 0 or the pressed marker (R20). -/
  key : Vector Nat 16
  /-- FR (R21). -/
  fr : Bool
  /-- DBG (R22). -/
  dbg : Dbg
  /-- ESR (R23). -/
  esr : BitVec 8
  /-- The open parameters of R5: written by no step (log entry 3). -/
  params : Params
  /-- What the environment will do next, oldest first (log entry 2). -/
  env : List EnvEvent
  /-- The inputs of the present iteration (R225; log entry 1). -/
  inputs : Draw
  /-- How many free draws have been taken (log entry 1). -/
  drawn : Nat
  /-- The notifications emitted, oldest first (log entry 7). -/
  out : List OutEvent
  deriving DecidableEq, Repr

/-- The reasons a step stops with a fault: there is none. "No rule of this spec terminates the machine" (R200); every error
condition is a next state with its report. Empty, hence safe (log entry 32). -/
inductive Fault where
  deriving DecidableEq, Repr

/-- The reasons a step is refused. -/
inductive Refusal where
  /-- An instruction the model gives no meaning; raised by no arm of `exec` in this model. Safe. -/
  | notModelled (mnemonic : String)
  deriving DecidableEq, Repr

/-- Reset with the empty image under the parameters `p` (R261): memory lists nothing, so every cell reads as after reset. -/
def State.resetWith (p : Params) : State where
  mem := []
  v := Vector.replicate 16 0
  i := 0
  pc := 0x200
  stack := Vector.replicate 16 0
  sp := 0
  fb := Vector.replicate 64 (Vector.replicate 32 false)
  dt := 0
  st := 0
  key := Vector.replicate 16 0
  fr := false
  dbg := p.dbgReset
  esr := 0
  params := p
  env := []
  inputs := { tickDue := false, ptickDue := false, rnd := 0, pick := 0 }
  drawn := 0
  out := []

/-- The machine right after reset: the default parameters and the empty image, which is a legal load (R262; log entry 5). -/
def State.reset : State := State.resetWith defaultParams

end Sys2Proof.Machine
end

