-- ==== Sys2Proof/Machine/Ops.lean ====
section
/-! DEFINITION. The operations all instructions share: memory, registers, the program counter, and `raise`. -/

namespace Sys2Proof.Machine

open Sys2Proof.Config

/-- What one instruction, or one step, answers. -/
abbrev Result := Host.Outcome State Fault Refusal

/-! ## Memory -/

/-- What an unlisted address reads as: the contents of MEM after reset with the empty image, FONT at 0x000 to 0x04F and 0
elsewhere (R41, R261). Glyph d lies at 5 × d (R56). -/
def Memory.unlisted (p : Params) (a : Nat) : Byte :=
  if h : a < 80 then (p.font[a / 5])[a % 5] else 0

/-- The byte listed at an address, if there is one. -/
def Memory.lookup : Memory → Nat → Option Byte
  | [], _ => none
  | (a, b) :: m, k => if k = a then some b else Memory.lookup m k

/-- One byte of MEM (R40). Addresses above 4095 do not exist; every access checks before it comes here (log entry 30). -/
def Memory.read (p : Params) (m : Memory) (a : Nat) : Byte := (Memory.lookup m a).getD (Memory.unlisted p a)

/-- List a byte at an address, in the place the order asks for. -/
def Memory.insert : Memory → Nat → Byte → Memory
  | [], k, b => [(k, b)]
  | (a, c) :: m, k, b =>
    if k < a then (k, b) :: (a, c) :: m
    else if k = a then (k, b) :: m
    else (a, c) :: Memory.insert m k b

/-- Unlist an address. -/
def Memory.remove : Memory → Nat → Memory
  | [], _ => []
  | (a, c) :: m, k => if k = a then Memory.remove m k else (a, c) :: Memory.remove m k

/-- Write one byte and keep the canonical form: the byte an unlisted address reads as is not listed. -/
def Memory.write (p : Params) (m : Memory) (a : Nat) (b : Byte) : Memory :=
  if b = Memory.unlisted p a then Memory.remove m a else Memory.insert m a b

/-- Write bytes at ascending addresses from `a` (R42). -/
def Memory.writeBytes (p : Params) : Memory → Nat → List Byte → Memory
  | m, _, [] => m
  | m, a, b :: bs => Memory.writeBytes p (Memory.write p m a b) (a + 1) bs

/-- The canonical form: addresses exist and strictly rise, and no listed byte is what its address would read as unlisted. -/
abbrev Memory.wf (p : Params) (m : Memory) : Prop :=
  m.Pairwise (fun c d => c.1 < d.1) ∧ ∀ c ∈ m, c.1 < memSize ∧ c.2 ≠ Memory.unlisted p c.1

/-- The byte at an address. -/
def State.readByte (s : State) (a : Nat) : Byte := Memory.read s.params s.mem a

/-- The n bytes from an address on. -/
def State.readBytes (s : State) (a n : Nat) : List Byte := (List.range n).map fun k => s.readByte (a + k)

/-- Store bytes at ascending addresses from `a`. -/
def State.storeBytes (s : State) (a : Nat) (bs : List Byte) : State :=
  { s with mem := Memory.writeBytes s.params s.mem a bs }

/-- The check of R43 and R45 for a run of `n` bytes from `a`: the lowest address of the run above 4095, if there is one. A
run of no bytes touches no address. -/
def rangeError (a n : Nat) : Option Nat :=
  if n = 0 then none else if a + n ≤ memSize then none else some (max a memSize)

/-! ## Registers and the program counter -/

/-- Read Vr (R7, R11). -/
def State.reg (s : State) (r : Reg) : Byte := s.v[r]

/-- Write Vr; no register is hardwired (R11). -/
def State.setReg (s : State) (r : Reg) (b : Byte) : State := { s with v := s.v.set r b }

/-- Write I, all 16 bits of it (R13). -/
def State.setI (s : State) (w : Word) : State := { s with i := w }

/-- Set pc; no alignment is checked (R14, R46). -/
def State.setPc (s : State) (w : Word) : State := { s with pc := w }

/-- pc <- trunc_16(pc + d) (R14). -/
def State.advance (s : State) (d : Word) : State := { s with pc := s.pc + d }

/-- The pixel of column px and row py (R17). -/
def State.pixel (s : State) (px : Fin 64) (py : Fin 32) : Bool := s.fb[px][py]

/-! ## Error conditions

This machine takes no exceptions: there is no vector, no saved pc, no mode and hence no return (R212, R213). Its one shared
operation is `raise`. -/

/-- The code of a condition, which is also its bit of ESR (R201). -/
def ErrorCond.code : ErrorCond → Nat
  | .unknownOpcode _ => 1
  | .notImplemented _ => 2
  | .stackOverflow _ => 3
  | .stackUnderflow => 4
  | .addrRange _ _ => 5
  | .loadFail _ => 6
  | .keyRange _ => 7

/-- The number in the report's info (R201); E_ADDR_RANGE carries its kind as well. -/
def ErrorCond.info : ErrorCond → Nat
  | .unknownOpcode op => op.toNat
  | .notImplemented op => op.toNat
  | .stackOverflow nnn => nnn.toNat
  | .stackUnderflow => 0
  | .addrRange addr _ => addr
  | .loadFail length => length
  | .keyRange value => value.toNat

/-- `raise E(info)` (R200): emit the report with the pc of the instruction being executed, and set the condition's bit of
ESR. Nothing else changes. -/
def State.raise (s : State) (e : ErrorCond) : State :=
  { s with esr := s.esr ||| BitVec.twoPow 8 e.code, out := s.out ++ [.report e s.pc] }

/-- An instruction that is rejected: its condition is raised and pc goes on by 2 (R175, R201; log entry 8). -/
def State.reject (s : State) (e : ErrorCond) : State := (s.raise e).advance 2

/-! ## Fetching -/

/-- `MemRead(pc, 2)` (R42, R43): the opcode at pc, or the lowest offending address. -/
def fetch (s : State) : Except Nat Word :=
  match rangeError s.pc.toNat 2 with
  | some bad => .error bad
  | none => .ok (opcodeOf (s.readByte s.pc.toNat) (s.readByte (s.pc.toNat + 1)))

end Sys2Proof.Machine
end

