-- ==== Sys2Proof/Machine/Flags.lean ====
section
/-! DEFINITION. Every flag computation, and the order in which a result and its flag are written (R12, R119). -/

namespace Sys2Proof.Machine

/-- What VF receives as a flag: exactly 1 or 0 (R12). -/
def flagByte (b : Bool) : Byte := if b then 1 else 0

/-- The carry of `8xy4`: the exact sum is above 255 (R126). -/
def carry (a b : Byte) : Bool := decide (a.toNat + b.toNat > 255)

/-- No borrow in a − b: a ≥ b, unsigned (R127, R129). -/
def noBorrow (a b : Byte) : Bool := decide (a.toNat ≥ b.toNat)

/-- The bit a right shift moves out (R128). -/
def outRight (a : Byte) : Bool := a.getLsbD 0

/-- The bit a left shift moves out (R130). -/
def outLeft (a : Byte) : Bool := a.getLsbD 7

/-- Whether I + Vx exceeds 12 bits (R141). -/
def indexOverflow (i : Word) (b : Byte) : Bool := decide (i.toNat + b.toNat > 0xFFF)

/-- Write VF as a flag. -/
def State.setFlag (s : State) (b : Bool) : State := s.setReg VF (flagByte b)

/-- `V[x] <- result`, then `V[0xF] <- flag`: with x = 0xF the flag remains (R119; log entry 13). -/
def State.writeResultFlag (s : State) (x : Reg) (result : Byte) (flag : Bool) : State :=
  (s.setReg x result).setFlag flag

end Sys2Proof.Machine
end

