-- ==== Sys2Proof/Machine/Operands.lean ====
section
/-! DEFINITION. The operand forms: immediates, registers V0 to Vx as a block, keys, decimal digits, sprites. -/

namespace Sys2Proof.Machine

open Sys2Proof.Config

/-- nnn zero-extended to 16 bits (R62). -/
def addrOf (nnn : Addr12) : Word := nnn.setWidth 16

/-- A conditional skip: pc + 4 if the condition holds, else pc + 2 (R109). -/
def State.skipIf (s : State) (c : Bool) : State := s.advance (if c then 4 else 2)

/-! ## The register block V0 to Vx (R144, R145) -/

/-- How many registers the block V0 to Vx has. -/
def blockSize (x : Reg) : Nat := x.val + 1

/-- The values of V0 to Vx. -/
def State.blockRegs (s : State) (x : Reg) : List Byte := s.v.toList.take (blockSize x)

/-- V0 to Vx take the bytes from address `a` on; the other registers stay. -/
def State.loadBlock (s : State) (a : Nat) (x : Reg) : State :=
  { s with v := Vector.ofFn fun r : Reg => if r ≤ x then s.readByte (a + r.val) else s.reg r }

/-- I moves past the block, modulo 2^16 (R144). -/
def State.bumpI (s : State) (x : Reg) : State := s.setI (s.i + BitVec.ofNat 16 (blockSize x))

/-- The hundreds, tens and ones of a byte (R143). -/
def bcdDigits (b : Byte) : List Byte :=
  [BitVec.ofNat 8 (b.toNat / 100), BitVec.ofNat 8 (b.toNat / 10 % 10), BitVec.ofNat 8 (b.toNat % 10)]

/-! ## Keys (R20, R170) -/

/-- A key is pressed when its entry is not zero. -/
def State.pressed (s : State) (k : Fin 16) : Bool := s.key[k] != 0

/-- The set P of R170, in rising order. -/
def State.pressedKeys (s : State) : List (Fin 16) := (List.finRange 16).filter fun k => s.pressed k

/-- `pick(P)` under KEYWAIT_PICK; for `any` the draw `d` chooses (R170; log entry 17). -/
def pickKey (m : KeywaitPick) (d : Nat) (ks : List (Fin 16)) : Option (Fin 16) :=
  match m with
  | .lowest => ks.head?
  | .highest => ks.getLast?
  | .any => ks[d % ks.length]?

/-! ## Sprites (R156, R157) -/

/-- A framebuffer being drawn on, and whether a pixel has gone from set to unset. -/
structure Canvas where
  fb : Framebuffer
  hit : Bool
  deriving DecidableEq, Repr

/-- Where the position (px, py) lands on the grid: DRAW_EDGE reduces it, or drops it (R156). -/
def place (m : DrawEdge) (px py : Nat) : Option (Fin 64 × Fin 32) :=
  match m with
  | .wrap => some (⟨px % 64, Nat.mod_lt _ (by decide)⟩, ⟨py % 32, Nat.mod_lt _ (by decide)⟩)
  | .clip => if h : px < 64 ∧ py < 32 then some (⟨px, h.1⟩, ⟨py, h.2⟩) else none

/-- XOR one set bit of a sprite into the pixel it lands on. -/
def Canvas.plot (m : DrawEdge) (px py : Nat) (c : Canvas) : Canvas :=
  match place m px py with
  | none => c
  | some (x, y) => { fb := c.fb.set x (c.fb[x].set y (!c.fb[x][y])), hit := c.hit || c.fb[x][y] }

/-- Draw one row of a sprite; column k is bit 7 − k of the byte (R156; log entry 15). -/
def Canvas.drawRow (m : DrawEdge) (x0 py : Nat) (b : Byte) (c : Canvas) : Canvas :=
  (List.range 8).foldl (fun c k => if b.getLsbD (7 - k) then c.plot m (x0 + k) py else c) c

/-- Draw the rows of a sprite from row py downwards. -/
def Canvas.drawRows (m : DrawEdge) (x0 : Nat) : Nat → List Byte → Canvas → Canvas
  | _, [], c => c
  | py, b :: bs, c => Canvas.drawRows m x0 (py + 1) bs (c.drawRow m x0 py b)

end Sys2Proof.Machine
end

