-- ==== Sys2Proof/Machine/Arith.lean ====
section
/-! DEFINITION. Assignment, logic and arithmetic (spec/42_arith.md). All operands are read before anything is written (R119). -/

namespace Sys2Proof.Machine

/-- Write Vx and go on: the instructions that write no flag. -/
def State.assign (s : State) (x : Reg) (b : Byte) : State := (s.setReg x b).advance 2

/-- Write Vx, then the flag, and go on: the instructions that write VF (R119). -/
def State.assignFlag (s : State) (x : Reg) (b : Byte) (f : Bool) : State := (s.writeResultFlag x b f).advance 2

/-- LD Vx, byte (R120). -/
def execLdByte (x : Reg) (nn : Byte) (s : State) : Result := .next (s.assign x nn)

/-- ADD Vx, byte (R121): no flag. -/
def execAddByte (x : Reg) (nn : Byte) (s : State) : Result := .next (s.assign x (s.reg x + nn))

/-- LD Vx, Vy (R122). -/
def execLdReg (x y : Reg) (s : State) : Result := .next (s.assign x (s.reg y))

/-- OR Vx, Vy (R123): VF is not reset. -/
def execOrReg (x y : Reg) (s : State) : Result := .next (s.assign x (s.reg x ||| s.reg y))

/-- AND Vx, Vy (R124). -/
def execAndReg (x y : Reg) (s : State) : Result := .next (s.assign x (s.reg x &&& s.reg y))

/-- XOR Vx, Vy (R125). -/
def execXorReg (x y : Reg) (s : State) : Result := .next (s.assign x (s.reg x ^^^ s.reg y))

/-- ADD Vx, Vy (R126). -/
def execAddReg (x y : Reg) (s : State) : Result :=
  .next (s.assignFlag x (s.reg x + s.reg y) (carry (s.reg x) (s.reg y)))

/-- SUB Vx, Vy (R127). -/
def execSubReg (x y : Reg) (s : State) : Result :=
  .next (s.assignFlag x (s.reg x - s.reg y) (noBorrow (s.reg x) (s.reg y)))

/-- SHR Vx (R128): Vx in place, zero enters at bit 7; y is ignored. -/
def execShr (x _y : Reg) (s : State) : Result := .next (s.assignFlag x (s.reg x >>> 1) (outRight (s.reg x)))

/-- SUBN Vx, Vy (R129). -/
def execSubn (x y : Reg) (s : State) : Result :=
  .next (s.assignFlag x (s.reg y - s.reg x) (noBorrow (s.reg y) (s.reg x)))

/-- SHL Vx (R130): Vx in place, zero enters at bit 0; y is ignored. -/
def execShl (x _y : Reg) (s : State) : Result := .next (s.assignFlag x (s.reg x <<< 1) (outLeft (s.reg x)))

end Sys2Proof.Machine
end

