-- ==== Sys2Proof/Machine/Display.lean ====
section
/-! DEFINITION. The display instructions (spec/45_display.md). -/

namespace Sys2Proof.Machine

/-- FB with every pixel false. -/
def blankScreen : Framebuffer := Vector.replicate 64 (Vector.replicate 32 false)

/-- CLS (R155): VF = 1 and FR = 1, always. -/
def execCls (s : State) : Result := .next (({ s with fb := blankScreen, fr := true }.setFlag true).advance 2)

/-- FB and the collision after drawing the bytes of a sprite at the position V[x], V[y] hold (R156). -/
def State.sprite (s : State) (x y : Reg) (bytes : List Byte) : Canvas :=
  Canvas.drawRows s.params.drawEdge (s.reg x).toNat (s.reg y).toNat bytes { fb := s.fb, hit := false }

/-- DRW Vx, Vy, nibble (R156). -/
def execDrw (x y : Reg) (n : Fin 16) (s : State) : Result :=
  match rangeError s.i.toNat n.val with
  | some bad => .next (s.reject (.addrRange bad .read))
  | none =>
    let c := s.sprite x y (s.readBytes s.i.toNat n.val)
    .next (({ s with fb := c.fb, fr := true }.setFlag c.hit).advance 2)

end Sys2Proof.Machine
end

