-- ==== Sys2Proof/Machine/Flow.lean ====
section
/-! DEFINITION. Flow: JP, CALL, RET, JP V0 (spec/40_flow.md). -/

namespace Sys2Proof.Machine

/-- JP addr (R100). -/
def execJp (nnn : Addr12) (s : State) : Result := .next (s.setPc (addrOf nnn))

/-- CALL addr (R101): the pushed value is the address of the CALL itself; with a full stack the call is dropped. -/
def execCall (nnn : Addr12) (s : State) : Result :=
  if h : s.sp.val < 16 then
    .next { s with stack := s.stack.set s.sp.val s.pc, sp := ⟨s.sp.val + 1, by omega⟩, pc := addrOf nnn }
  else .next (s.reject (.stackOverflow nnn))

/-- RET (R102): pc becomes the popped value plus 2; the popped entry keeps its bits. -/
def execRet (s : State) : Result :=
  if h : 0 < s.sp.val then
    .next { s with sp := ⟨s.sp.val - 1, by omega⟩, pc := s.stack[s.sp.val - 1] + 2 }
  else .next (s.reject .stackUnderflow)

/-- JP V0, addr (R103): the sum is not reduced modulo 4096. -/
def execJpV0 (nnn : Addr12) (s : State) : Result := .next (s.setPc (addrOf nnn + (s.reg 0).setWidth 16))

end Sys2Proof.Machine
end

