-- ==== Sys2Proof/Machine/Index.lean ====
section
/-! DEFINITION. The index register and memory (spec/43_index_memory.md). A run of bytes is checked as a whole before anything changes (R45). -/

namespace Sys2Proof.Machine

open Sys2Proof.Config

/-- LD I, addr (R140). -/
def execLdI (nnn : Addr12) (s : State) : Result := .next ((s.setI (addrOf nnn)).advance 2)

/-- The write of VF by `Fx1E` under FX1E_VF_MODE (R141). -/
def State.indexFlag (s : State) (overflow : Bool) : State :=
  match s.params.fx1eVfMode with
  | .off => s
  | .setOnly => if overflow then s.setFlag true else s
  | .setClear => s.setFlag overflow

/-- ADD I, Vx (R141): I keeps 16 bits of the sum; Vx is read before VF is written. -/
def execAddI (x : Reg) (s : State) : Result :=
  .next (((s.setI (s.i + (s.reg x).setWidth 16)).indexFlag (indexOverflow s.i (s.reg x))).advance 2)

/-- LD F, Vx (R142): the whole byte times 5. -/
def execLdF (x : Reg) (s : State) : Result := .next ((s.setI ((s.reg x).setWidth 16 * 5)).advance 2)

/-- LD B, Vx (R143); I is not changed. -/
def execLdB (x : Reg) (s : State) : Result :=
  match rangeError s.i.toNat 3 with
  | some bad => .next (s.reject (.addrRange bad .write))
  | none => .next ((s.storeBytes s.i.toNat (bcdDigits (s.reg x))).advance 2)

/-- LD [I], Vx (R144). -/
def execLdMemVx (x : Reg) (s : State) : Result :=
  match rangeError s.i.toNat (blockSize x) with
  | some bad => .next (s.reject (.addrRange bad .write))
  | none => .next (((s.storeBytes s.i.toNat (s.blockRegs x)).bumpI x).advance 2)

/-- LD Vx, [I] (R145). -/
def execLdVxMem (x : Reg) (s : State) : Result :=
  match rangeError s.i.toNat (blockSize x) with
  | some bad => .next (s.reject (.addrRange bad .read))
  | none => .next (((s.loadBlock s.i.toNat x).bumpI x).advance 2)

end Sys2Proof.Machine
end

