-- ==== Sys2Proof/Machine/Input.lean ====
section
/-! DEFINITION. The blocking key wait (spec/47_input.md). -/

namespace Sys2Proof.Machine

/-- One execution of LD Vx, K (R170): with no key pressed nothing is written and pc stays, so that the next cycle executes it
again; else the picked key's index goes to Vx. -/
def execLdVxK (x : Reg) (s : State) : Result :=
  match pickKey s.params.keywaitPick s.inputs.pick s.pressedKeys with
  | none => .next s
  | some k => .next ((s.setReg x (BitVec.ofNat 8 k.val)).advance 2)

end Sys2Proof.Machine
end

