-- ==== Sys2Proof/Machine/Legacy.lean ====
section
/-! DEFINITION. The legacy call and unknown opcodes (spec/48_legacy_unknown.md). -/

namespace Sys2Proof.Machine

/-- SYS addr (R175): reported with its opcode 0nnn, nothing is called, pc goes on. -/
def execSys (nnn : Addr12) (s : State) : Result := .next (s.reject (.notImplemented (addrOf nnn)))

/-- UNKNOWN (R176): what a cycle does with an opcode the decoder refuses. It is no row of the table and no instruction. -/
def execUnknown (op : Word) (s : State) : Result := .next (s.reject (.unknownOpcode op))

end Sys2Proof.Machine
end

