-- ==== Sys2Proof/Machine/Random.lean ====
section
/-! DEFINITION. The random instruction (spec/44_random.md). -/

namespace Sys2Proof.Machine

/-- RND Vx, byte (R150): the byte is the iteration's free input `rnd` (log entry 1). -/
def execRnd (x : Reg) (nn : Byte) (s : State) : Result := .next ((s.setReg x (s.inputs.rnd &&& nn)).advance 2)

end Sys2Proof.Machine
end

