-- ==== Sys2Proof/Machine/Skip.lean ====
section
/-! DEFINITION. Conditional skips: SE, SNE, SKP, SKNP (spec/41_skip.md). -/

namespace Sys2Proof.Machine

/-- SE Vx, byte (R110). -/
def execSeByte (x : Reg) (nn : Byte) (s : State) : Result := .next (s.skipIf (s.reg x == nn))

/-- SNE Vx, byte (R111). -/
def execSneByte (x : Reg) (nn : Byte) (s : State) : Result := .next (s.skipIf (s.reg x != nn))

/-- SE Vx, Vy (R112). -/
def execSeReg (x y : Reg) (s : State) : Result := .next (s.skipIf (s.reg x == s.reg y))

/-- SNE Vx, Vy (R113). -/
def execSneReg (x y : Reg) (s : State) : Result := .next (s.skipIf (s.reg x != s.reg y))

/-- A skip on the key whose index is the value of Vx; an index above 15 is reported and never skips (R114, R115). -/
def State.keySkip (s : State) (x : Reg) (whenPressed : Bool) : State :=
  if h : (s.reg x).toNat < 16 then s.skipIf (s.pressed ⟨(s.reg x).toNat, h⟩ == whenPressed)
  else s.reject (.keyRange (s.reg x))

/-- SKP Vx (R114). -/
def execSkp (x : Reg) (s : State) : Result := .next (s.keySkip x true)

/-- SKNP Vx (R115). -/
def execSknp (x : Reg) (s : State) : Result := .next (s.keySkip x false)

end Sys2Proof.Machine
end

