-- ==== Sys2Proof/Machine/Timers.lean ====
section
/-! DEFINITION. Timer access (spec/46_timers.md). -/

namespace Sys2Proof.Machine

/-- LD Vx, DT (R165). -/
def execLdVxDt (x : Reg) (s : State) : Result := .next ((s.setReg x s.dt).advance 2)

/-- LD DT, Vx (R166). -/
def execLdDtVx (x : Reg) (s : State) : Result := .next ({ s with dt := s.reg x }.advance 2)

/-- LD ST, Vx (R167): the instruction itself emits no tone. -/
def execLdStVx (x : Reg) (s : State) : Result := .next ({ s with st := s.reg x }.advance 2)

end Sys2Proof.Machine
end

