-- ==== Sys2Proof/Machine/HostEvents.lean ====
section
/-! DEFINITION. What the host does between iterations: reset and load, keys, debug signals, status (spec/60_exceptions.md sections 8 and 9, spec/70_reset_and_hazards.md). -/

namespace Sys2Proof.Machine

open Sys2Proof.Config

/-- MEM after a reset that loads an image: byte j goes to 0x200 + j (R55, R262). -/
def loadImage (p : Params) (image : List Byte) : Memory := Memory.writeBytes p [] progBase image

/-- All the machine's state at its reset values (R260, R261). The parameters and what belongs to the environment (its
schedule, its inputs, its record of notifications) are outside the machine and stay. -/
def State.fresh (s : State) : State :=
  { State.resetWith s.params with env := s.env, inputs := s.inputs, drawn := s.drawn, out := s.out }

/-- reset(image) (R261, R262): an image of at most 3584 bytes is loaded; a longer one, or none, loads nothing and reports
E_LOAD_FAIL with the length offered (R207). -/
def State.hostReset (s : State) (image : Option (List Byte)) : State :=
  match image with
  | none => s.fresh.raise (.loadFail 0)
  | some bytes =>
    if bytes.length ≤ maxImage then { s.fresh with mem := loadImage s.params bytes }
    else s.fresh.raise (.loadFail bytes.length)

/-- One entry of KEY takes a value; an index outside 0 to 15 is ignored (R240). -/
def State.setKey (s : State) (k value : Nat) : State :=
  if h : k < 16 then { s with key := s.key.set k value } else s

/-- The Debug Controller on pause (R231, R234). -/
def Dbg.pause : Dbg → Dbg
  | .running => .paused
  | .paused => .paused
  | .stepPending => .stepPending

/-- The Debug Controller on continue (R232, R234). -/
def Dbg.cont : Dbg → Dbg
  | .running => .running
  | .paused => .running
  | .stepPending => .stepPending

/-- The Debug Controller on step (R233, R234). -/
def Dbg.step : Dbg → Dbg
  | .running => .running
  | .paused => .stepPending
  | .stepPending => .stepPending

/-- One host event, atomic, between two iterations (R50). -/
def State.hostEvent (s : State) (e : HostEvent) : State :=
  match e with
  | .reset image => s.hostReset image
  | .keySet k => s.setKey k s.params.keyPressedMarker.val
  | .keyClear k => s.setKey k 0
  | .pause => { s with dbg := Dbg.pause s.dbg }
  | .cont => { s with dbg := Dbg.cont s.dbg }
  | .step => { s with dbg := Dbg.step s.dbg }

/-- DBG as the status port encodes it (R22). -/
def State.statusPort (s : State) : Nat :=
  match s.dbg with
  | .running => 0
  | .paused => 1
  | .stepPending => 2

/-- The status output `paused` (R235). -/
def State.paused (s : State) : Bool := s.dbg == .paused

/-- The status output `step_over` (R235). -/
def State.stepOver (s : State) : Bool := s.dbg == .stepPending

end Sys2Proof.Machine
end

