-- ==== Sys2Proof/Machine/Scheduler.lean ====
section
/-! DEFINITION. One scheduler iteration (R225): the cycle, then the checks that follow it. -/

namespace Sys2Proof.Machine

open Sys2Proof.Config

/-- One fetch-decode-execute cycle (R225). A fetch outside memory is reported and executes nothing (R205 case (a)); an opcode
the decoder refuses is reported and pc goes on (R176). -/
def cycle (s : State) : Result :=
  match fetch s with
  | .error bad => .next (s.raise (.addrRange bad .fetch))
  | .ok op =>
    match decodeWord s.params.strictLowNibble op with
    | .ok i => exec i s
    | .error _ => execUnknown op s

/-- If FR is set, emit frame_ready with a copy of FB, and clear it (R221). -/
def State.frameCheck (s : State) : State :=
  { s with fr := false, out := if s.fr then s.out ++ [.frameReady s.fb] else s.out }

/-- One step towards zero, never below it (R222). -/
def countDown (b : Byte) : Byte := if b = 0 then 0 else b - 1

/-- If a tick is due, `timer_tick()` of R222: the tone when ST is 1, and each timer counts down on its own. Written field by
field, so that only DT, ST and the tone depend on the free input. -/
def State.timerCheck (s : State) : State :=
  { s with
    dt := if s.inputs.tickDue then countDown s.dt else s.dt
    st := if s.inputs.tickDue then countDown s.st else s.st
    out := if s.st = 1 then (if s.inputs.tickDue then s.out ++ [.beep] else s.out) else s.out }

/-- If the periodic tick is due, emit it (R223). -/
def State.periodicCheck (s : State) : State :=
  { s with out := if s.inputs.ptickDue then s.out ++ [.periodicTick] else s.out }

/-- StepPending becomes Paused at the end of the iteration (R233). -/
def State.stepReturn (s : State) : State := { s with dbg := if s.dbg = .stepPending then .paused else s.dbg }

/-- What follows the instruction, in the order of R225. -/
def State.afterCycle (s : State) : State := s.frameCheck.timerCheck.periodicCheck.stepReturn

/-- Go on from a next state; a fault or a refusal stays. -/
def andThen (r : Result) (f : State → State) : Result :=
  match r with
  | .next s => .next (f s)
  | .fault e => .fault e
  | .refused e => .refused e

/-- One iteration with its inputs in `inputs` (R225); while Paused nothing happens (R226). -/
def iteration (s : State) : Result :=
  if s.dbg = .paused then .next s else andThen (cycle s) State.afterCycle

/-- Load the inputs of an iteration (R225). -/
def State.withInputs (s : State) (d : Draw) : State := { s with inputs := d }

/-- Take the next free draw (log entry 1). -/
def State.withFreeInputs (s : State) : State := { s with inputs := freeDraw s.drawn, drawn := s.drawn + 1 }

/-- What the environment does next, taken from the head of its schedule: a host event, or an iteration with given inputs; with
nothing scheduled, an iteration whose inputs are free (log entries 1 and 2). -/
def envStep (s : State) : Result :=
  match s.env with
  | .host e :: rest => .next ({ s with env := rest }.hostEvent e)
  | .iterate d :: rest => iteration ({ s with env := rest }.withInputs d)
  | [] => iteration s.withFreeInputs

/-- Whether an entry of the schedule is a host event. -/
def isHostEvent : EnvEvent → Bool
  | .host _ => true
  | .iterate _ => false

/-- Where `placeWord` puts an instruction: at pc, or at 0x200 when no instruction can be fetched at pc (log entry 31). -/
def fetchPc (s : State) : Word := if s.pc.toNat + 2 ≤ memSize then s.pc else 0x200

/-- `s` with the word stored where the next step fetches, the Debug Controller not Paused and no host event in the way. -/
def placeWord (s : State) (w : Word) : State :=
  { s with
    mem := Memory.writeBytes s.params s.mem (fetchPc s).toNat (wordBytes w)
    pc := fetchPc s
    dbg := if s.dbg = .paused then .running else s.dbg
    env := s.env.dropWhile isHostEvent }

end Sys2Proof.Machine
end

