-- ==== Sys2Proof/Machine/Step.lean ====
section
/-! DEFINITION. The step of the machine, and where it fetches its next instruction. -/

namespace Sys2Proof.Machine

/-- One atomic event of the machine (R225, R236): see `envStep` in Machine/Scheduler.lean. -/
def step (s : State) : Host.Outcome State Fault Refusal := envStep s

/-- `s` with the instruction word `w` (bits above `nbits` zero) where `step` fetches next (log entry 31). -/
def State.withFetchWord (s : State) (nbits w : Nat) : State := placeWord s (BitVec.ofNat 16 (w % 2 ^ nbits))

end Sys2Proof.Machine
end

