-- ==== Sys2Proof/Safety.lean ====
section
/-! DEFINITION. The terms claims are stated in: a run without errors, a settled run, the frame of an instruction, the invariant of a step. -/

namespace Sys2Proof.Machine

open Sys2Proof.Config

/-- No error has been reported since reset (R23, R277): a run is safe while this holds. -/
def State.clean (s : State) : Prop := s.esr = 0

/-- The run has settled at `a` (R276): pc is `a`, even and below 4095, and the opcode there is the jump to itself. -/
def State.settledAt (s : State) (a : Addr12) : Prop :=
  s.pc = addrOf a ∧ a.toNat % 2 = 0 ∧
    opcodeOf (s.readByte a.toNat) (s.readByte (a.toNat + 1)) = encodeWord (.jp a)

/-- The fields of State, by name. -/
inductive Field where
  | mem | v | i | pc | stack | sp | fb | dt | st | key | fr | dbg | esr | params | env | inputs | drawn | out
  deriving DecidableEq, Repr

/-- Two states agree on a field; on memory, when every address reads alike. -/
def State.agree (s t : State) : Field → Prop
  | .mem => ∀ a, t.readByte a = s.readByte a
  | .v => t.v = s.v
  | .i => t.i = s.i
  | .pc => t.pc = s.pc
  | .stack => t.stack = s.stack
  | .sp => t.sp = s.sp
  | .fb => t.fb = s.fb
  | .dt => t.dt = s.dt
  | .st => t.st = s.st
  | .key => t.key = s.key
  | .fr => t.fr = s.fr
  | .dbg => t.dbg = s.dbg
  | .esr => t.esr = s.esr
  | .params => t.params = s.params
  | .env => t.env = s.env
  | .inputs => t.inputs = s.inputs
  | .drawn => t.drawn = s.drawn
  | .out => t.out = s.out

/-- The frame: from `s` to `t` nothing changes but, perhaps, the listed fields. -/
def Frame (changed : List Field) (s t : State) : Prop := ∀ f, f ∉ changed → s.agree t f

/-- Every register but the listed ones keeps its value. -/
def RegsKept (changed : List Reg) (s t : State) : Prop := ∀ r, r ∉ changed → t.reg r = s.reg r

/-- `t` is `s` after an error condition was raised (R200): the report carries `s`'s pc and the condition's bit of ESR is set. -/
def Raised (e : ErrorCond) (s t : State) : Prop :=
  t.out = s.out ++ [.report e s.pc] ∧ t.esr = s.esr ||| BitVec.twoPow 8 e.code

/-- `t` is `s` after an instruction that was rejected: the condition was raised, pc went on by 2, nothing else changed (R201). -/
def Rejected (e : ErrorCond) (s t : State) : Prop :=
  Raised e s t ∧ t.pc = s.pc + 2 ∧ Frame [.esr, .out, .pc] s t

/-- `t` is `s` after `V[x] <- b` and pc + 2: every other register, and everything else, is as before. -/
def Assigned (x : Reg) (b : Byte) (s t : State) : Prop :=
  t.reg x = b ∧ RegsKept [x] s t ∧ t.pc = s.pc + 2 ∧ Frame [.v, .pc] s t

/-- `t` is `s` after `V[x] <- b`, then `V[0xF] <- f`, and pc + 2 (R119): with x = 0xF only the flag remains. -/
def FlagAssigned (x : Reg) (b f : Byte) (s t : State) : Prop :=
  t.reg VF = f ∧ (x ≠ VF → t.reg x = b) ∧ RegsKept [x, VF] s t ∧ t.pc = s.pc + 2 ∧ Frame [.v, .pc] s t

/-- `t` is `s` after a conditional skip (R109): only pc changes, by 4 if the condition holds and by 2 if not. -/
def Skipped (c : Prop) (s t : State) : Prop :=
  (c → t.pc = s.pc + 4) ∧ (¬c → t.pc = s.pc + 2) ∧ Frame [.pc] s t

/-- A set bit of the sprite of `n` rows at address I, drawn with its left edge at column x0 and its top at row y0, lands on the
pixel (px, py) (R156): row r is the byte at I + r, column c is its bit 7 − c, and DRAW_EDGE says where a position lands. -/
def Covered (s : State) (x0 y0 n : Nat) (px : Fin 64) (py : Fin 32) : Prop :=
  ∃ r c : Nat, r < n ∧ c < 8 ∧ (s.readByte (s.i.toNat + r)).getLsbD (7 - c) = true ∧
    match s.params.drawEdge with
    | .wrap => px.val = (x0 + c) % 64 ∧ py.val = (y0 + r) % 32
    | .clip => px.val = x0 + c ∧ py.val = y0 + r

/-- The machine runs: the next event of the environment is an iteration, and the Debug Controller is not Paused. -/
def State.runs (s : State) : Prop := (∀ e rest, s.env ≠ .host e :: rest) ∧ s.dbg ≠ .paused

/-- `s` with the inputs of its next iteration loaded: those of the schedule's head, or free ones with nothing scheduled. -/
def State.loaded (s : State) : State :=
  match s.env with
  | .iterate d :: rest => { s with env := rest, inputs := d }
  | .host _ :: _ => s
  | [] => { s with inputs := freeDraw s.drawn, drawn := s.drawn + 1 }

/-- Run instructions one after the other, each on the state the one before left. -/
def execAll : List Instr → State → Result
  | [], s => .next s
  | i :: rest, s =>
    match exec i s with
    | .next t => execAll rest t
    | .fault e => .fault e
    | .refused e => .refused e

/-- The registers among V0 to VF each instruction may write (the table of R10): its destination x, V0 to Vx for the block load,
and VF for the flag writers of R12. -/
def mayWriteReg (i : Instr) (r : Reg) : Bool :=
  match i with
  | .ldByte x _ | .addByte x _ | .ldReg x _ | .orReg x _ | .andReg x _ | .xorReg x _ | .rnd x _ => r == x
  | .ldVxDt x | .ldVxK x => r == x
  | .addReg x _ | .subReg x _ | .shr x _ | .subn x _ | .shl x _ => r == x || r == VF
  | .ldVxMem x => decide (r ≤ x)
  | .cls | .drw _ _ _ | .addI _ => r == VF
  | .ret | .sys _ | .jp _ | .call _ | .jpV0 _ | .seByte _ _ | .sneByte _ _ | .seReg _ _ | .sneReg _ _ => false
  | .skp _ | .sknp _ | .ldI _ | .ldDtVx _ | .ldStVx _ | .ldF _ | .ldB _ | .ldMemVx _ => false

/-- The instructions that write VF as a flag (R12). -/
def writesFlag : Instr → Bool
  | .addReg _ _ | .subReg _ _ | .shr _ _ | .subn _ _ | .shl _ _ | .drw _ _ _ | .cls | .addI _ => true
  | _ => false

/-- The conditional skips (R109). -/
def isSkip : Instr → Bool
  | .seByte _ _ | .sneByte _ _ | .seReg _ _ | .sneReg _ _ | .skp _ | .sknp _ => true
  | _ => false

/-- The control-flow transfers (R14): the instructions that set pc to a target. -/
def isTransfer : Instr → Bool
  | .jp _ | .call _ | .ret | .jpV0 _ => true
  | _ => false

/-- Every register and array but MEM and ESR is at its reset value (R261): a load that fails sets a bit of ESR. -/
def RegistersReset (t : State) : Prop :=
  (∀ r, t.reg r = 0) ∧ t.i = 0 ∧ t.pc = 0x200 ∧ t.sp.val = 0 ∧ (∀ j : Fin 16, t.stack[j] = 0) ∧
    (∀ px py, t.pixel px py = false) ∧ t.dt = 0 ∧ t.st = 0 ∧ (∀ k : Fin 16, t.key[k] = 0) ∧ t.fr = false ∧
    t.dbg = t.params.dbgReset

/-- Row r of glyph d of FONT lies at 5 × d + r (R41, R56). -/
def FontInPlace (t : State) : Prop := ∀ (d : Fin 16) (r : Fin 5), t.readByte (5 * d.val + r.val) = t.params.font[d][r]

/-- E_ADDR_RANGE of a data access of the kind `k` (R205 case (b)). -/
def isAccessError (k : AccessKind) : ErrorCond → Bool
  | .addrRange _ k' => k' == k
  | _ => false

/-- The one condition each instruction may raise (R201, R210): codes 2, 3, 4, 5 and 7; all other instructions raise none. -/
def mayRaise (i : Instr) (e : ErrorCond) : Bool :=
  match i with
  | .sys _ => e.code == 2
  | .call _ => e.code == 3
  | .ret => e.code == 4
  | .drw _ _ _ | .ldVxMem _ => isAccessError .read e
  | .ldB _ | .ldMemVx _ => isAccessError .write e
  | .skp _ | .sknp _ => e.code == 7
  | .cls | .jp _ | .jpV0 _ | .seByte _ _ | .sneByte _ _ | .seReg _ _ | .sneReg _ _ | .ldByte _ _ | .addByte _ _ => false
  | .ldReg _ _ | .orReg _ _ | .andReg _ _ | .xorReg _ _ | .addReg _ _ | .subReg _ _ | .shr _ _ | .subn _ _ => false
  | .shl _ _ | .ldI _ | .rnd _ _ | .ldVxDt _ | .ldVxK _ | .ldDtVx _ | .ldStVx _ | .addI _ | .ldF _ => false

/-- Whether a notification is a report. -/
def isReport : OutEvent → Bool
  | .report _ _ => true
  | .frameReady _ | .beep | .periodicTick => false

/-- What every step keeps: memory in its canonical form, FR clear between steps (R221), bit 0 of ESR 0 (R23), every entry of
KEY released or holding the marker (R20). -/
structure StepInv (s : State) : Prop where
  memCanonical : Memory.wf s.params s.mem
  frClear : s.fr = false
  esrBit0 : s.esr.getLsbD 0 = false
  keysLegal : ∀ k : Fin 16, s.key[k] = 0 ∨ s.key[k] = s.params.keyPressedMarker.val

end Sys2Proof.Machine
end

