-- ==== Sys2Proof/Certificates/Slice0/Obligations.lean ====
section
/-! DEFINITION. The statements for the provers: what the numbered rules of spec/ say the machine does. -/

open Sys2Proof Sys2Proof.Machine Sys2Proof.Config

/-! ## Encoding (30_encoding.md) -/

/-- R64: words written out from the table's encodings decode to the instructions they stand for. -/
def Obligations.SampleWordsDecode : Prop :=
  decode false [0x00, 0xE0] = .ok (.cls, []) ∧ decode false [0x01, 0x23] = .ok (.sys 0x123, []) ∧
  decode false [0x22, 0x08] = .ok (.call 0x208, []) ∧ decode false [0x60, 0x05] = .ok (.ldByte 0 5, []) ∧
  decode false [0x8A, 0xB4] = .ok (.addReg 0xA 0xB, []) ∧ decode false [0x81, 0x26] = .ok (.shr 1 2, []) ∧
  decode false [0xD1, 0x25] = .ok (.drw 1 2 5, []) ∧ decode false [0xE9, 0xA1] = .ok (.sknp 9, []) ∧
  decode false [0xF3, 0x1E] = .ok (.addI 3, []) ∧ decode false [0xF2, 0x65] = .ok (.ldVxMem 2, []) ∧
  decode false [0x81, 0x28] = .error .unknown ∧ decode false [0x60] = .error .truncated

/-- R61 to R64: decoding the bytes of a well-formed instruction gives it back, with every operand at every value, whatever
STRICT_LOW_NIBBLE is and whatever bytes follow (which words of group 0 are SYS is the spec's decision D19, log entry 23). -/
def Obligations.DecodeOfEncodeIsIdentity : Prop :=
  ∀ (i : Instr) (strict : Bool) (rest : List Byte), i.wellFormed = true →
    decode strict (encode i ++ rest) = .ok (i, rest)

/-- R63, R69: under STRICT_LOW_NIBBLE every opcode that decodes is the encoding of what it decodes to, so no two opcodes share
an instruction; and what decodes is well-formed (the parameter is
the spec's decision D20, log entry 24; that CLS and RET match all 16 bits is its decision D19, log entry 23). -/
def Obligations.StrictDecodeHasOneEncoding : Prop :=
  ∀ (op : Word) (i : Instr), decodeWord true op = .ok i → encodeWord i = op ∧ i.wellFormed = true

/-- R70, R69: the patterns that are UNKNOWN, said on the nibbles of the opcode; the last line is the spec's decision D20
(log entry 24). -/
def Obligations.UnknownPatternsExactly : Prop :=
  ∀ (strict : Bool) (op : Word), decodeWord strict op = .error .unknown ↔
    (op.toNat / 4096 = 0x8 ∧ op.toNat % 16 ∈ [0x8, 0x9, 0xA, 0xB, 0xC, 0xD, 0xF]) ∨
    (op.toNat / 4096 = 0xE ∧ op.toNat % 256 ∉ [0x9E, 0xA1]) ∨
    (op.toNat / 4096 = 0xF ∧ op.toNat % 256 ∉ [0x07, 0x0A, 0x15, 0x18, 0x1E, 0x29, 0x33, 0x55, 0x65]) ∨
    (strict = true ∧ op.toNat / 4096 ∈ [0x5, 0x9] ∧ op.toNat % 16 ≠ 0)

/-- R63 against R64: the decoder's classification by nibbles is the first row of the opcode map whose match and mask fit
(group 0 and the low nibbles of groups 5 and 9 by the spec's decisions D19 and D20, log entries 23 and 24). -/
def Obligations.DecoderFollowsTheOpcodeMap : Prop :=
  ∀ (strict : Bool) (op : Word),
    (∀ i, decodeWord strict op = .ok i → firstRow strict op = some (rowOf i)) ∧
    (∀ r, decodeWord strict op = .error r → r = .unknown ∧ firstRow strict op = none)

/-! ## Reset and load (70_reset_and_hazards.md) -/

/-- R261: what reset leaves in every register the spec lists, and in memory. That DBG is the parameter DBG_RESET, by default
Paused, is the spec's decision D16 (log entry 6); the font bytes are the parameter FONT (log entry 4). -/
def Obligations.ResetValues : Prop :=
  RegistersReset State.reset ∧ State.reset.esr = 0 ∧ State.reset.dbg = .paused ∧ FontInPlace State.reset ∧
    ∀ a, 80 ≤ a → a < 4096 → State.reset.readByte a = 0

/-- R55, R260 to R262: a reset with an image of at most 3584 bytes puts byte j at 0x200 + j, FONT at 5 × d + r, 0 in every other
cell, and every register at its reset value whatever the session before it did, and reports nothing. That DBG becomes
DBG_RESET is the spec's decision D16 (log entry 6). -/
def Obligations.ResetLoadsTheImage : Prop :=
  ∀ (s : State) (image : List Byte) (rest : List EnvEvent),
    s.env = .host (.reset (some image)) :: rest → image.length ≤ 3584 →
    ∃ t, Sys2Proof.Machine.step s = .next t ∧
      (∀ (j : Nat) (h : j < image.length), t.readByte (0x200 + j) = image[j]) ∧ FontInPlace t ∧
      (∀ a, 80 ≤ a → a < 0x200 → t.readByte a = 0) ∧
      (∀ a, 0x200 + image.length ≤ a → a < 4096 → t.readByte a = 0) ∧
      RegistersReset t ∧ t.esr = 0 ∧ t.params = s.params ∧ t.env = rest ∧ t.out = s.out

/-- R207, R260 to R262: a reset with no image, or with one longer than 3584 bytes, loads nothing, leaves FONT and zeros in memory
and every register at its reset value, and reports E_LOAD_FAIL with pc 0x200 and the length offered (that an oversize image
loads nothing is the spec's decision D22, log entry 26; that DBG becomes DBG_RESET its decision D16, log entry 6). -/
def Obligations.ResetWithoutUsableImage : Prop :=
  ∀ (s : State) (image : Option (List Byte)) (rest : List EnvEvent),
    s.env = .host (.reset image) :: rest → (∀ bytes, image = some bytes → 3584 < bytes.length) →
    ∃ t, Sys2Proof.Machine.step s = .next t ∧
      t.out = s.out ++ [.report (.loadFail ((image.map List.length).getD 0)) 0x200] ∧ t.esr = 0x40 ∧
      FontInPlace t ∧ (∀ a, 80 ≤ a → a < 4096 → t.readByte a = 0) ∧
      RegistersReset t ∧ t.params = s.params ∧ t.env = rest

/-! ## The host's events (60_exceptions.md sections 8 and 9) -/

/-- R231 to R234: the transitions of the Debug Controller on pause, continue and step, and that a signal with no listed
transition is ignored (the spec's decision D16, log entry 6). Nothing else changes. -/
def Obligations.DebugSignals : Prop :=
  ∀ (s : State) (rest : List EnvEvent),
    (s.env = .host .pause :: rest → ∃ t, Sys2Proof.Machine.step s = .next t ∧ t.env = rest ∧ Frame [.dbg, .env] s t ∧
      t.dbg = if s.dbg = .running then .paused else s.dbg) ∧
    (s.env = .host .cont :: rest → ∃ t, Sys2Proof.Machine.step s = .next t ∧ t.env = rest ∧ Frame [.dbg, .env] s t ∧
      t.dbg = if s.dbg = .paused then .running else s.dbg) ∧
    (s.env = .host .step :: rest → ∃ t, Sys2Proof.Machine.step s = .next t ∧ t.env = rest ∧ Frame [.dbg, .env] s t ∧
      t.dbg = if s.dbg = .paused then .stepPending else s.dbg)

/-- R240, R20: key_set writes the pressed marker, which reads as pressed, and key_clear 0 into one entry of KEY; an index above 15
is ignored (the spec's decision D14, log entry 19). -/
def Obligations.KeyEvents : Prop :=
  ∀ (s : State) (k : Nat) (rest : List EnvEvent),
    (s.env = .host (.keySet k) :: rest → ∃ t, Sys2Proof.Machine.step s = .next t ∧ t.env = rest ∧
      Frame [.key, .env] s t ∧
      (∀ j : Fin 16, t.key[j] = if j.val = k then s.params.keyPressedMarker.val else s.key[j]) ∧
      ∀ j : Fin 16, j.val = k → t.pressed j = true) ∧
    (s.env = .host (.keyClear k) :: rest → ∃ t, Sys2Proof.Machine.step s = .next t ∧ t.env = rest ∧
      Frame [.key, .env] s t ∧
      (∀ j : Fin 16, t.key[j] = if j.val = k then 0 else s.key[j]) ∧ ∀ j : Fin 16, j.val = k → t.pressed j = false)

/-- R226: an iteration that finds Paused changes no state of the machine and emits nothing; only the model's record of the
environment goes on (the spec's decision D18, log entry 22). -/
def Obligations.PausedIterationIdles : Prop :=
  ∀ s : State, s.dbg = .paused → (∀ e rest, s.env ≠ .host e :: rest) →
    ∃ t, Sys2Proof.Machine.step s = .next t ∧ Frame [.env, .inputs, .drawn] s t

/-! ## The scheduler iteration (60_exceptions.md R225) -/

/-- R225: when the machine runs and the bytes at pc decode to an instruction, the step is that instruction's effect with the
iteration's inputs loaded, followed by what comes after a cycle. -/
def Obligations.StepRunsTheDecodedInstruction : Prop :=
  ∀ (s t : State) (i : Instr), s.runs → s.pc.toNat + 2 ≤ 4096 →
    decode s.params.strictLowNibble [s.readByte s.pc.toNat, s.readByte (s.pc.toNat + 1)] = .ok (i, []) →
    Sys2Proof.Machine.exec i s.loaded = .next t → Sys2Proof.Machine.step s = .next t.afterCycle

/-- R221, R222, R223, R233, in the order of R225 (the spec's decision D17, log entry 21): after the cycle FR is clear, both
timers have counted down if a tick was due, a stepped iteration has returned to Paused, and frame_ready, beep and
periodic_tick have been emitted in this order. -/
def Obligations.AfterCycleEffects : Prop :=
  ∀ t : State, t.afterCycle.fr = false ∧
    t.afterCycle.dt.toNat = (if t.inputs.tickDue = true then t.dt.toNat - 1 else t.dt.toNat) ∧
    t.afterCycle.st.toNat = (if t.inputs.tickDue = true then t.st.toNat - 1 else t.st.toNat) ∧
    t.afterCycle.dbg = (if t.dbg = .stepPending then .paused else t.dbg) ∧
    t.afterCycle.out = t.out ++ (if t.fr = true then [.frameReady t.fb] else []) ++
      (if t.inputs.tickDue = true ∧ t.st = 1 then [.beep] else []) ++
      (if t.inputs.ptickDue = true then [.periodicTick] else []) ∧
    Frame [.fr, .dt, .st, .dbg, .out] t t.afterCycle

/-- R205 case (a): with pc above 4094 the cycle reports the lowest address above 4095, executes nothing and leaves pc; the rest
of the iteration goes on (the spec's decision D4, log entry 9). -/
def Obligations.FetchOutsideMemory : Prop :=
  ∀ s : State, s.runs → 4094 < s.pc.toNat →
    ∃ t, Sys2Proof.Machine.step s = .next t.afterCycle ∧
      Raised (.addrRange (if s.pc.toNat = 4095 then 4096 else s.pc.toNat) .fetch) s.loaded t ∧
      Frame [.esr, .out] s.loaded t

/-- R176: an opcode of the UNKNOWN patterns is reported with its 16 bits, pc goes on by 2 and nothing else changes (log entry 8). -/
def Obligations.UnknownOpcodeStep : Prop :=
  ∀ s : State, s.runs → s.pc.toNat + 2 ≤ 4096 →
    decodeWord s.params.strictLowNibble (opcodeOf (s.readByte s.pc.toNat) (s.readByte (s.pc.toNat + 1))) =
      .error .unknown →
    ∃ t, Sys2Proof.Machine.step s = .next t.afterCycle ∧
      Rejected (.unknownOpcode (opcodeOf (s.readByte s.pc.toNat) (s.readByte (s.pc.toNat + 1)))) s.loaded t

/-- R200, R276: the machine has no terminal state: every instruction and every step answers a next state
(that the machine goes on after a report is the spec's choice, log entries 8, 9 and 32). -/
def Obligations.NothingTerminatesTheMachine : Prop :=
  (∀ (i : Instr) (s : State), ∃ t, Sys2Proof.Machine.exec i s = .next t) ∧ ∀ s, ∃ t, Sys2Proof.Machine.step s = .next t

/-- How a word comes to run (log entry 31): after `withFetchWord` the machine runs and fetches exactly that word. -/
def Obligations.FetchWordIsFetched : Prop :=
  ∀ (s : State) (w : Nat), w < 65536 →
    (s.withFetchWord 16 w).runs ∧ fetch (s.withFetchWord 16 w).loaded = .ok (BitVec.ofNat 16 w)

/-! ## Flow (40_flow.md) -/

/-- R100: JP goes to nnn and changes nothing else. -/
def Obligations.JumpGoesToItsTarget : Prop :=
  ∀ (s : State) (nnn : Addr12), ∃ t, Sys2Proof.Machine.exec (.jp nnn) s = .next t ∧
    t.pc.toNat = nnn.toNat ∧ Frame [.pc] s t

/-- R101: CALL pushes its own address and goes to nnn; with a full stack it is dropped and reported, and pc goes on by 2 (where
pc goes is the spec's decision D3, log entry 8). -/
def Obligations.CallPushesItsOwnAddress : Prop :=
  ∀ (s : State) (nnn : Addr12),
    (∀ k : Fin 16, s.sp.val = k.val → ∃ t, Sys2Proof.Machine.exec (.call nnn) s = .next t ∧ t.stack[k] = s.pc ∧
      (∀ j : Fin 16, j ≠ k → t.stack[j] = s.stack[j]) ∧ t.sp.val = s.sp.val + 1 ∧ t.pc.toNat = nnn.toNat ∧
      Frame [.stack, .sp, .pc] s t) ∧
    (s.sp.val = 16 → ∃ t, Sys2Proof.Machine.exec (.call nnn) s = .next t ∧ Rejected (.stackOverflow nnn) s t)

/-- R102: RET pops and goes to the popped value plus 2; that the popped entry keeps its bits is the spec's decision D24 (log
entry 27). With an empty stack it is reported, and pc goes on by 2 (the spec's decision D3, log entry 8). -/
def Obligations.ReturnPopsAndAddsTwo : Prop :=
  ∀ s : State,
    (∀ k : Fin 16, s.sp.val = k.val + 1 → ∃ t, Sys2Proof.Machine.exec .ret s = .next t ∧ t.sp.val = k.val ∧
      t.pc = s.stack[k] + 2 ∧ Frame [.sp, .pc] s t) ∧
    (s.sp.val = 0 → ∃ t, Sys2Proof.Machine.exec .ret s = .next t ∧ Rejected .stackUnderflow s t)

/-- R103: JP V0 goes to nnn + V0, not reduced modulo 4096 (the spec's decision D5, log entry 10), and changes nothing else. -/
def Obligations.JumpPlusOffset : Prop :=
  ∀ (s : State) (nnn : Addr12), ∃ t, Sys2Proof.Machine.exec (.jpV0 nnn) s = .next t ∧
    t.pc.toNat = nnn.toNat + (s.reg 0).toNat ∧ Frame [.pc] s t

/-- R101, R102 together: calls that fit the stack all succeed, and as many returns give back the addresses after them, the last
first. The call sites are the pc of the first call and then the target before each later one. -/
def Obligations.CallsReturnLastFirst : Prop :=
  ∀ (s : State) (targets : List Addr12), s.sp.val + targets.length ≤ 16 →
    ∃ t, execAll (targets.map .call) s = .next t ∧ t.sp.val = s.sp.val + targets.length ∧ t.esr = s.esr ∧
      ∀ k, 0 < k → k ≤ targets.length →
        ∃ u, execAll (List.replicate k .ret) t = .next u ∧ u.sp.val = s.sp.val + targets.length - k ∧
          some u.pc = ((s.pc :: targets.map addrOf)[targets.length - k]?).map (· + 2) ∧
          Frame [.stack, .sp, .pc] s u

/-! ## Conditional skips (41_skip.md) -/

/-- R110, R111: SE and SNE with an immediate. -/
def Obligations.SkipOnImmediate : Prop :=
  ∀ (s : State) (x : Reg) (nn : Byte),
    (∃ t, Sys2Proof.Machine.exec (.seByte x nn) s = .next t ∧ Skipped (s.reg x = nn) s t) ∧
    (∃ t, Sys2Proof.Machine.exec (.sneByte x nn) s = .next t ∧ Skipped (s.reg x ≠ nn) s t)

/-- R112, R113: SE and SNE between registers. -/
def Obligations.SkipOnRegisters : Prop :=
  ∀ (s : State) (x y : Reg),
    (∃ t, Sys2Proof.Machine.exec (.seReg x y) s = .next t ∧ Skipped (s.reg x = s.reg y) s t) ∧
    (∃ t, Sys2Proof.Machine.exec (.sneReg x y) s = .next t ∧ Skipped (s.reg x ≠ s.reg y) s t)

/-- R114, R115: SKP and SKNP test the key whose index is the value of Vx; an index above 15 is reported and does not skip (the
spec's decision D13, log entry 18). -/
def Obligations.SkipOnKey : Prop :=
  ∀ (s : State) (x : Reg),
    (∀ k : Fin 16, (s.reg x).toNat = k.val →
      (∃ t, Sys2Proof.Machine.exec (.skp x) s = .next t ∧ Skipped (s.key[k] ≠ 0) s t) ∧
      (∃ t, Sys2Proof.Machine.exec (.sknp x) s = .next t ∧ Skipped (s.key[k] = 0) s t)) ∧
    (15 < (s.reg x).toNat →
      (∃ t, Sys2Proof.Machine.exec (.skp x) s = .next t ∧ Rejected (.keyRange (s.reg x)) s t) ∧
      (∃ t, Sys2Proof.Machine.exec (.sknp x) s = .next t ∧ Rejected (.keyRange (s.reg x)) s t))

/-! ## Assignment, logic, arithmetic (42_arith.md) -/

/-- R120 to R125: the six instructions that write Vx and no flag. The sum of ADD Vx, byte is truncated to 8 bits. -/
def Obligations.AssignmentsAndLogic : Prop :=
  ∀ (s : State) (x y : Reg) (nn : Byte),
    (∃ t, Sys2Proof.Machine.exec (.ldByte x nn) s = .next t ∧ Assigned x nn s t) ∧
    (∃ t, Sys2Proof.Machine.exec (.addByte x nn) s = .next t ∧
      Assigned x (BitVec.ofNat 8 ((s.reg x).toNat + nn.toNat)) s t) ∧
    (∃ t, Sys2Proof.Machine.exec (.ldReg x y) s = .next t ∧ Assigned x (s.reg y) s t) ∧
    (∃ t, Sys2Proof.Machine.exec (.orReg x y) s = .next t ∧ Assigned x (s.reg x ||| s.reg y) s t) ∧
    (∃ t, Sys2Proof.Machine.exec (.andReg x y) s = .next t ∧ Assigned x (s.reg x &&& s.reg y) s t) ∧
    (∃ t, Sys2Proof.Machine.exec (.xorReg x y) s = .next t ∧ Assigned x (s.reg x ^^^ s.reg y) s t)

/-- R126: ADD Vx, Vy, with the carry of the exact sum in VF. That with x = 0xF the flag remains is the spec's decision D8 (log
entry 13), here and in the next two statements. -/
def Obligations.AddWithCarry : Prop :=
  ∀ (s : State) (x y : Reg), ∃ t, Sys2Proof.Machine.exec (.addReg x y) s = .next t ∧
    FlagAssigned x (BitVec.ofNat 8 ((s.reg x).toNat + (s.reg y).toNat))
      (if 255 < (s.reg x).toNat + (s.reg y).toNat then 1 else 0) s t

/-- R127, R129: SUB and SUBN, with VF = 1 exactly when there is no borrow. -/
def Obligations.SubtractWithBorrow : Prop :=
  ∀ (s : State) (x y : Reg),
    (∃ t, Sys2Proof.Machine.exec (.subReg x y) s = .next t ∧
      FlagAssigned x (BitVec.ofNat 8 ((s.reg x).toNat + 256 - (s.reg y).toNat))
        (if (s.reg y).toNat ≤ (s.reg x).toNat then 1 else 0) s t) ∧
    (∃ t, Sys2Proof.Machine.exec (.subn x y) s = .next t ∧
      FlagAssigned x (BitVec.ofNat 8 ((s.reg y).toNat + 256 - (s.reg x).toNat))
        (if (s.reg x).toNat ≤ (s.reg y).toNat then 1 else 0) s t)

/-- R128, R130: SHR and SHL shift Vx in place by one and move the bit shifted out to VF, whatever y is. -/
def Obligations.ShiftsInPlace : Prop :=
  ∀ (s : State) (x y : Reg),
    (∃ t, Sys2Proof.Machine.exec (.shr x y) s = .next t ∧
      FlagAssigned x (BitVec.ofNat 8 ((s.reg x).toNat / 2)) (BitVec.ofNat 8 ((s.reg x).toNat % 2)) s t) ∧
    (∃ t, Sys2Proof.Machine.exec (.shl x y) s = .next t ∧
      FlagAssigned x (BitVec.ofNat 8 ((s.reg x).toNat * 2)) (BitVec.ofNat 8 ((s.reg x).toNat / 128)) s t)

/-! ## Index register and memory (43_index_memory.md) -/

/-- R140, R142: LD I, addr and LD F, Vx; the whole byte is multiplied by 5. -/
def Obligations.IndexLoads : Prop :=
  ∀ (s : State) (nnn : Addr12) (x : Reg),
    (∃ t, Sys2Proof.Machine.exec (.ldI nnn) s = .next t ∧ t.i.toNat = nnn.toNat ∧ t.pc = s.pc + 2 ∧
      Frame [.i, .pc] s t) ∧
    (∃ t, Sys2Proof.Machine.exec (.ldF x) s = .next t ∧ t.i.toNat = 5 * (s.reg x).toNat ∧ t.pc = s.pc + 2 ∧
      Frame [.i, .pc] s t)

/-- R141: ADD I, Vx keeps 16 bits of the sum (the spec's decision D6, log entry 11) and writes VF as FX1E_VF_MODE says (log
entry 12). -/
def Obligations.IndexAdd : Prop :=
  ∀ (s : State) (x : Reg), ∃ t, Sys2Proof.Machine.exec (.addI x) s = .next t ∧
    t.i = BitVec.ofNat 16 (s.i.toNat + (s.reg x).toNat) ∧
    (t.reg VF = match s.params.fx1eVfMode with
      | .off => s.reg VF
      | .setOnly => if 0xFFF < s.i.toNat + (s.reg x).toNat then 1 else s.reg VF
      | .setClear => if 0xFFF < s.i.toNat + (s.reg x).toNat then 1 else 0) ∧
    RegsKept [VF] s t ∧ t.pc = s.pc + 2 ∧ Frame [.i, .v, .pc] s t

/-- R143, R45: LD B stores the decimal digits of Vx at I, I + 1 and I + 2 and nowhere else, and keeps I; a run that leaves memory
is reported and stores nothing (the spec's decisions D3 and D11, log entries 8 and 16). -/
def Obligations.BinaryCodedDecimalStore : Prop :=
  ∀ (s : State) (x : Reg),
    (s.i.toNat + 2 ≤ 4095 → ∃ t, Sys2Proof.Machine.exec (.ldB x) s = .next t ∧
      (t.readByte s.i.toNat).toNat = (s.reg x).toNat / 100 ∧
      (t.readByte (s.i.toNat + 1)).toNat = (s.reg x).toNat / 10 % 10 ∧
      (t.readByte (s.i.toNat + 2)).toNat = (s.reg x).toNat % 10 ∧
      (∀ a, a < s.i.toNat ∨ s.i.toNat + 2 < a → t.readByte a = s.readByte a) ∧
      t.pc = s.pc + 2 ∧ Frame [.mem, .pc] s t) ∧
    (4095 < s.i.toNat + 2 → ∃ t, Sys2Proof.Machine.exec (.ldB x) s = .next t ∧
      Rejected (.addrRange (max s.i.toNat 4096) .write) s t)

/-- R144, R45: LD [I], Vx stores V0 to Vx at I to I + x and nowhere else, and moves I past them; a run that leaves memory is
reported and changes nothing (log entries 8 and 16). -/
def Obligations.RegisterDump : Prop :=
  ∀ (s : State) (x : Reg),
    (s.i.toNat + x.val ≤ 4095 → ∃ t, Sys2Proof.Machine.exec (.ldMemVx x) s = .next t ∧
      (∀ r : Reg, r ≤ x → t.readByte (s.i.toNat + r.val) = s.reg r) ∧
      (∀ a, a < s.i.toNat ∨ s.i.toNat + x.val < a → t.readByte a = s.readByte a) ∧
      t.i = BitVec.ofNat 16 (s.i.toNat + x.val + 1) ∧ t.pc = s.pc + 2 ∧ Frame [.mem, .i, .pc] s t) ∧
    (4095 < s.i.toNat + x.val → ∃ t, Sys2Proof.Machine.exec (.ldMemVx x) s = .next t ∧
      Rejected (.addrRange (max s.i.toNat 4096) .write) s t)

/-- R145, R45: LD Vx, [I] loads V0 to Vx from I to I + x, keeps the other registers and moves I past the block; a run that leaves
memory is reported and changes nothing (log entries 8 and 16). -/
def Obligations.RegisterLoad : Prop :=
  ∀ (s : State) (x : Reg),
    (s.i.toNat + x.val ≤ 4095 → ∃ t, Sys2Proof.Machine.exec (.ldVxMem x) s = .next t ∧
      (∀ r : Reg, r ≤ x → t.reg r = s.readByte (s.i.toNat + r.val)) ∧ (∀ r : Reg, x < r → t.reg r = s.reg r) ∧
      t.i = BitVec.ofNat 16 (s.i.toNat + x.val + 1) ∧ t.pc = s.pc + 2 ∧ Frame [.v, .i, .pc] s t) ∧
    (4095 < s.i.toNat + x.val → ∃ t, Sys2Proof.Machine.exec (.ldVxMem x) s = .next t ∧
      Rejected (.addrRange (max s.i.toNat 4096) .read) s t)

/-- R144, R145: registers dumped and loaded again from the same I are what they were, whatever they and I were set to in
between. -/
def Obligations.DumpThenLoadRestores : Prop :=
  ∀ (s : State) (x : Reg) (v : Vector Byte 16), s.i.toNat + x.val ≤ 4095 →
    ∃ t u, Sys2Proof.Machine.exec (.ldMemVx x) s = .next t ∧
      Sys2Proof.Machine.exec (.ldVxMem x) { t with i := s.i, v := v } = .next u ∧
      ∀ r : Reg, u.reg r = if r ≤ x then s.reg r else v[r]

/-- R52: a byte stored is what the very next fetch reads: with pc on two stored bytes the opcode fetched is made of the two
registers stored there. -/
def Obligations.StoredBytesAreFetched : Prop :=
  ∀ (s : State) (x j k : Reg), s.i.toNat + x.val ≤ 4095 → k.val = j.val + 1 → k ≤ x →
    ∃ t, Sys2Proof.Machine.exec (.ldMemVx x) s = .next t ∧
      fetch { t with pc := s.i + BitVec.ofNat 16 j.val } = .ok (opcodeOf (s.reg j) (s.reg k))

/-- R16, R40: equal memories are equal data: two canonical memories that read alike at every address are one. -/
def Obligations.CanonicalMemoryIsUnique : Prop :=
  ∀ (p : Params) (m m' : Memory), Memory.wf p m → Memory.wf p m' →
    (∀ a, Memory.read p m a = Memory.read p m' a) → m = m'

/-! ## Random, timers, input, legacy (44, 46, 47, 48) -/

/-- R150: RND writes the input byte masked by nn, for every byte, so no bit outside nn is ever set (the byte is a free
value: the spec's decision D23, log entry 1). -/
def Obligations.RandomIsMasked : Prop :=
  ∀ (s : State) (x : Reg) (nn : Byte), ∃ t, Sys2Proof.Machine.exec (.rnd x nn) s = .next t ∧
    Assigned x (s.inputs.rnd &&& nn) s t ∧ t.reg x &&& ~~~nn = 0

/-- R165 to R167: LD Vx, DT; LD DT, Vx; LD ST, Vx. None of them emits a tone. -/
def Obligations.TimerAccess : Prop :=
  ∀ (s : State) (x : Reg),
    (∃ t, Sys2Proof.Machine.exec (.ldVxDt x) s = .next t ∧ Assigned x s.dt s t) ∧
    (∃ t, Sys2Proof.Machine.exec (.ldDtVx x) s = .next t ∧ t.dt = s.reg x ∧ t.pc = s.pc + 2 ∧ Frame [.dt, .pc] s t) ∧
    (∃ t, Sys2Proof.Machine.exec (.ldStVx x) s = .next t ∧ t.st = s.reg x ∧ t.pc = s.pc + 2 ∧ Frame [.st, .pc] s t)

/-- R170: with no key pressed LD Vx, K changes nothing, not even pc; else it stores the index of a pressed key, the one
KEYWAIT_PICK asks for, and under `any` every pressed key is the pick of some draw (the spec's decision D12, log entry 17). -/
def Obligations.KeyWait : Prop :=
  ∀ (s : State) (x : Reg),
    ((∀ k : Fin 16, s.key[k] = 0) → ∃ t, Sys2Proof.Machine.exec (.ldVxK x) s = .next t ∧ Frame [] s t) ∧
    (∀ j : Fin 16, s.key[j] ≠ 0 → ∃ (t : State) (k : Fin 16), Sys2Proof.Machine.exec (.ldVxK x) s = .next t ∧
      s.key[k] ≠ 0 ∧ Assigned x (BitVec.ofNat 8 k.val) s t ∧
      (s.params.keywaitPick = .lowest → ∀ l : Fin 16, l < k → s.key[l] = 0) ∧
      (s.params.keywaitPick = .highest → ∀ l : Fin 16, k < l → s.key[l] = 0)) ∧
    (s.params.keywaitPick = .any → ∀ k : Fin 16, s.key[k] ≠ 0 → ∃ d t,
      Sys2Proof.Machine.exec (.ldVxK x) { s with inputs := { s.inputs with pick := d } } = .next t ∧
      t.reg x = BitVec.ofNat 8 k.val)

/-- R175: the legacy call is reported with its opcode, calls nothing, and pc goes on by 2 (the spec's decision D21, log
entry 25). -/
def Obligations.LegacyCallIsReported : Prop :=
  ∀ (s : State) (nnn : Addr12), ∃ t, Sys2Proof.Machine.exec (.sys nnn) s = .next t ∧
    Rejected (.notImplemented (BitVec.ofNat 16 nnn.toNat)) s t

/-! ## Display (45_display.md) -/

/-- R155, R221, R225: CLS makes every pixel false, VF 1 and FR 1, whatever FB held; the first notification after the cycle is
frame_ready with the blank picture. That CLS writes VF is the resolution of conflict C2 (log entry 33); that frame_ready comes
first is the spec's decision D17 (log entry 21). -/
def Obligations.ClearScreen : Prop :=
  ∀ s : State, ∃ t, Sys2Proof.Machine.exec .cls s = .next t ∧ (∀ px py, t.pixel px py = false) ∧ t.reg VF = 1 ∧
    t.fr = true ∧ RegsKept [VF] s t ∧ t.pc = s.pc + 2 ∧ Frame [.fb, .v, .fr, .pc] s t ∧
    ∃ later, t.afterCycle.out = s.out ++ .frameReady t.fb :: later

/-- R156, R157: DRW inverts exactly the pixels a set bit of the sprite lands on, under either DRAW_EDGE (log entry 14) and with
bit 7 leftmost (log entry 15); VF is 1 exactly when one of them was set; FR is 1. It covers n = 0, which draws nothing
(the spec's decision D26, log entry 29). -/
def Obligations.DrawXorsTheSprite : Prop :=
  ∀ (s : State) (x y : Reg) (n : Fin 16), (n.val = 0 ∨ s.i.toNat + n.val - 1 ≤ 4095) →
    ∃ t, Sys2Proof.Machine.exec (.drw x y n) s = .next t ∧
      (∀ px py, (Covered s (s.reg x).toNat (s.reg y).toNat n.val px py → t.pixel px py = !s.pixel px py) ∧
        (¬Covered s (s.reg x).toNat (s.reg y).toNat n.val px py → t.pixel px py = s.pixel px py)) ∧
      (t.reg VF = 0 ∨ t.reg VF = 1) ∧
      (t.reg VF = 1 ↔ ∃ px py, Covered s (s.reg x).toNat (s.reg y).toNat n.val px py ∧ s.pixel px py = true) ∧
      t.fr = true ∧ RegsKept [VF] s t ∧ t.pc = s.pc + 2 ∧ Frame [.fb, .v, .fr, .pc] s t

/-- R156, R45: a sprite whose bytes leave memory is reported and nothing is drawn (log entries 8 and 16). -/
def Obligations.DrawOutsideMemory : Prop :=
  ∀ (s : State) (x y : Reg) (n : Fin 16), 0 < n.val → 4095 < s.i.toNat + n.val - 1 →
    ∃ t, Sys2Proof.Machine.exec (.drw x y n) s = .next t ∧ Rejected (.addrRange (max s.i.toNat 4096) .read) s t

/-- R156: drawing the same sprite at the same location twice returns FB to what it was, and the second draw has VF = 1 whenever
the first set any pixel. The location is the same when the first draw's flag did not change a coordinate. -/
def Obligations.DrawingTwiceRestores : Prop :=
  ∀ (s t : State) (x y : Reg) (n : Fin 16), (n.val = 0 ∨ s.i.toNat + n.val - 1 ≤ 4095) →
    Sys2Proof.Machine.exec (.drw x y n) s = .next t → t.reg x = s.reg x → t.reg y = s.reg y →
    ∃ u, Sys2Proof.Machine.exec (.drw x y n) t = .next u ∧ (∀ px py, u.pixel px py = s.pixel px py) ∧
      ((∃ px py, s.pixel px py = false ∧ t.pixel px py = true) → u.reg VF = 1)

/-! ## Rules about the whole machine -/

/-- R21, R23, R20, R16: reset meets the invariant. -/
def Obligations.ResetMeetsTheInvariant : Prop := StepInv State.reset

/-- R16, R20, R21, R23: every step keeps memory canonical, FR clear between steps, bit 0 of ESR clear, and KEY legal (ESR and
the marker of KEY are the spec's decisions D2 and D14, log entries 20 and 19). -/
def Obligations.EveryStepKeepsTheInvariant : Prop :=
  ∀ s t, StepInv s → Sys2Proof.Machine.step s = .next t → StepInv t

/-- R10 to R23, R47: which instructions may write each piece of state, and how pc goes on. No instruction writes KEY, DBG, the
parameters or the environment. A flag writer leaves 0 or 1 in VF where it writes it (R12). ESR is the spec's decision D2 (log
entry 20); pc arithmetic modulo 2^16 its decision D5 (log entry 10). -/
def Obligations.WritersOfEachRegister : Prop :=
  ∀ (i : Instr) (s t : State), Sys2Proof.Machine.exec i s = .next t →
    (∀ r, mayWriteReg i r = false → t.reg r = s.reg r) ∧
    (writesFlag i = true → t.reg VF = s.reg VF ∨ t.reg VF = 0 ∨ t.reg VF = 1) ∧
    (isSkip i = false → isTransfer i = false → (∀ x, i ≠ .ldVxK x) → t.pc = s.pc + 2) ∧
    (isSkip i = true → t.pc = s.pc + 2 ∨ t.pc = s.pc + 4) ∧
    ((∃ x, i = .ldVxK x) → t.pc = s.pc ∨ t.pc = s.pc + 2) ∧
    ((∀ e, mayRaise i e = false) → t.esr = s.esr ∧ t.out = s.out) ∧
    (t.key = s.key ∧ t.dbg = s.dbg ∧ t.params = s.params ∧ t.env = s.env ∧ t.inputs = s.inputs ∧ t.drawn = s.drawn) ∧
    (i ≠ .cls → (∀ x y n, i ≠ .drw x y n) → t.fb = s.fb ∧ t.fr = s.fr) ∧
    ((∀ nnn, i ≠ .call nnn) → t.stack = s.stack) ∧
    ((∀ nnn, i ≠ .call nnn) → i ≠ .ret → t.sp = s.sp) ∧
    ((∀ x, i ≠ .ldDtVx x) → t.dt = s.dt) ∧ ((∀ x, i ≠ .ldStVx x) → t.st = s.st) ∧
    ((∀ x, i ≠ .ldB x) → (∀ x, i ≠ .ldMemVx x) → ∀ a, t.readByte a = s.readByte a) ∧
    ((∀ nnn, i ≠ .ldI nnn) → (∀ x, i ≠ .addI x) → (∀ x, i ≠ .ldF x) → (∀ x, i ≠ .ldMemVx x) →
      (∀ x, i ≠ .ldVxMem x) → t.i = s.i)

/-- R210: an instruction reports nothing, or exactly one condition, and that of its own kind (codes and ESR are the spec's
decision D2, log entry 20). -/
def Obligations.AtMostOneReportPerInstruction : Prop :=
  ∀ (i : Instr) (s t : State), Sys2Proof.Machine.exec i s = .next t →
    (t.out = s.out ∧ t.esr = s.esr) ∨ ∃ e, mayRaise i e = true ∧ Raised e s t

/-- R23, R200: ESR is sticky and records every report: but for a reset, after a step its bit k is set exactly when it was set
before or a condition of code k was reported in that step, and a step reports at most once (ESR is the spec's decision
D2, log entry 20). -/
def Obligations.StatusRecordsEveryReport : Prop :=
  ∀ s t : State, (∀ image rest, s.env ≠ .host (.reset image) :: rest) → Sys2Proof.Machine.step s = .next t →
    ∃ new, t.out = s.out ++ new ∧ (new.filter isReport).length ≤ 1 ∧
      ∀ k, t.esr.getLsbD k = true ↔ s.esr.getLsbD k = true ∨ ∃ e pc, OutEvent.report e pc ∈ new ∧ e.code = k

/-- R14, C4: even alignment is preserved and not enforced: with pc and every live stack entry even, an instruction leaves them
even unless it is a jump or call to an odd target (the spec's decision D5, log entry 10). -/
def Obligations.EvenPcIsPreserved : Prop :=
  ∀ (i : Instr) (s t : State), Sys2Proof.Machine.exec i s = .next t →
    s.pc.toNat % 2 = 0 → (∀ j : Fin 16, j.val < s.sp.val → s.stack[j].toNat % 2 = 0) →
    (∀ nnn, i = .jp nnn → nnn.toNat % 2 = 0) → (∀ nnn, i = .call nnn → nnn.toNat % 2 = 0) →
    (∀ nnn, i = .jpV0 nnn → (nnn.toNat + (s.reg 0).toNat) % 2 = 0) →
    t.pc.toNat % 2 = 0 ∧ ∀ j : Fin 16, j.val < t.sp.val → t.stack[j].toNat % 2 = 0

/-- R276: a settled run stays settled: an iteration leaves V, I, pc, SP, STACK, MEM, FB, FR, KEY and ESR unchanged and reports
nothing; only the timers, DBG and the record of the environment go on (the definition of settled is the spec's decision D27,
log entry 34). -/
def Obligations.SettledRunStaysSettled : Prop :=
  ∀ (s : State) (a : Addr12), s.settledAt a → s.runs → s.fr = false →
    ∃ t, Sys2Proof.Machine.step s = .next t ∧ t.settledAt a ∧ Frame [.dt, .st, .dbg, .env, .inputs, .drawn, .out] s t ∧
      ∃ new, t.out = s.out ++ new ∧ ∀ e ∈ new, isReport e = false

/-- R222, on a run that has settled: over a sequence of iterations each timer has gone down by the number of ticks that were
due, and not below 0, and the tone has been emitted once exactly if ST was positive and reached 0 (settled and
ticks: the spec's decisions D27 and D18, log entries 34 and 22). -/
def Obligations.TimersCountTheTicks : Prop :=
  ∀ (ds : List Draw) (s : State) (a : Addr12), s.settledAt a → s.dbg = .running → s.fr = false →
    s.env = ds.map .iterate →
    ∃ t, Host.Core.run Sys2Proof.core ds.length s = .next t ∧
      t.dt.toNat = s.dt.toNat - (ds.filter (·.tickDue)).length ∧
      t.st.toNat = s.st.toNat - (ds.filter (·.tickDue)).length ∧
      t.out.count .beep = s.out.count .beep +
        if 0 < s.st.toNat ∧ s.st.toNat ≤ (ds.filter (·.tickDue)).length then 1 else 0

/-- R212, R23 (ESR is the spec's decision D2, log entry 20): a program cannot observe that an error was reported:
two runs of any length that start alike but for ESR and the notifications emitted end alike but for them. -/
def Obligations.ErrorsAreInvisibleToPrograms : Prop :=
  ∀ (n : Nat) (s : State) (esr : BitVec 8) (out : List OutEvent),
    ∃ t u, Host.Core.run Sys2Proof.core n s = .next t ∧
      Host.Core.run Sys2Proof.core n { s with esr := esr, out := out } = .next u ∧ Frame [.esr, .out] t u

/-- R22, R233: a program cannot detect that it is being stepped: running freely through iterations with given inputs, and being
stepped through them from Paused, end in states that differ in DBG alone. -/
def Obligations.SteppingIsInvisible : Prop :=
  ∀ (ds : List Draw) (s : State),
    ∃ t u, Host.Core.run Sys2Proof.core ds.length { s with dbg := .running, env := ds.map .iterate } = .next t ∧
      Host.Core.run Sys2Proof.core (2 * ds.length)
        { s with dbg := .paused, env := ds.flatMap fun d => [.host .step, .iterate d] } = .next u ∧
      Frame [.dbg] t u
end

