-- ==== Sys2Proof/Laws/Decode.lean ====
section
/-! SUPPORT. The fields of the words the encoder's formats build, and the bytes of a word. -/

namespace Sys2Proof

variable (h n : BitVec 4) (x y : Reg) (nn : Byte) (nnn : Addr12)

@[simp] theorem fieldH_formNNN : fieldH (formNNN h nnn) = h := by
  unfold fieldH formNNN; ext i hi; simp; grind
@[simp] theorem fieldNNN_formNNN : fieldNNN (formNNN h nnn) = nnn := by
  unfold fieldNNN formNNN; ext i hi; simp; grind

@[simp] theorem fieldH_formXNN : fieldH (formXNN h x nn) = h := by
  unfold fieldH formXNN; ext i hi; simp; grind
@[simp] theorem fieldX_formXNN : fieldX (formXNN h x nn) = x := by
  have : ((formXNN h x nn).extractLsb 11 8 : BitVec 4) = BitVec.ofFin x := by
    unfold formXNN; generalize (BitVec.ofFin x : BitVec 4) = v; ext i hi; simp; grind
  unfold fieldX; rw [this]
@[simp] theorem fieldNN_formXNN : fieldNN (formXNN h x nn) = nn := by
  unfold fieldNN formXNN; ext i hi; simp; grind

@[simp] theorem fieldH_formXYN : fieldH (formXYN h x y n) = h := by
  unfold fieldH formXYN; ext i hi; simp; grind
@[simp] theorem fieldX_formXYN : fieldX (formXYN h x y n) = x := by
  have : ((formXYN h x y n).extractLsb 11 8 : BitVec 4) = BitVec.ofFin x := by
    unfold formXYN; generalize (BitVec.ofFin x : BitVec 4) = v; ext i hi; simp; grind
  unfold fieldX; rw [this]
@[simp] theorem fieldY_formXYN : fieldY (formXYN h x y n) = y := by
  have : ((formXYN h x y n).extractLsb 7 4 : BitVec 4) = BitVec.ofFin y := by
    unfold formXYN; generalize (BitVec.ofFin y : BitVec 4) = v; ext i hi; simp; grind
  unfold fieldY; rw [this]
@[simp] theorem fieldN_formXYN : fieldN (formXYN h x y n) = n.toFin := by
  have : ((formXYN h x y n).extractLsb 3 0 : BitVec 4) = n := by
    unfold formXYN; ext i hi; simp; grind
  unfold fieldN; rw [this]

/-- The two bytes of a word make the word again. -/
@[simp] theorem opcodeOf_wordBytes (w : Word) : opcodeOf (w.extractLsb 15 8) (w.extractLsb 7 0) = w := by
  unfold opcodeOf; ext i hi; simp; grind

/-! ## The same in numbers -/

theorem fieldH_toNat (op : Word) : (fieldH op).toNat = op.toNat / 4096 := by
  simp [fieldH, Nat.shiftRight_eq_div_pow]; omega
theorem fieldX_val (op : Word) : (fieldX op).val = op.toNat / 256 % 16 := by
  simp [fieldX, Nat.shiftRight_eq_div_pow]
theorem fieldY_val (op : Word) : (fieldY op).val = op.toNat / 16 % 16 := by
  simp [fieldY, Nat.shiftRight_eq_div_pow]
theorem fieldN_val (op : Word) : (fieldN op).val = op.toNat % 16 := by simp [fieldN]
theorem fieldNN_toNat (op : Word) : (fieldNN op).toNat = op.toNat % 256 := by simp [fieldNN]
theorem fieldNNN_toNat (op : Word) : (fieldNNN op).toNat = op.toNat % 4096 := by simp [fieldNNN]

theorem toNat_append_eq {a b : Nat} (v : BitVec a) (w : BitVec b) : (v ++ w).toNat = v.toNat * 2 ^ b + w.toNat := by
  rw [BitVec.toNat_append, ← Nat.shiftLeft_add_eq_or_of_lt w.isLt, Nat.shiftLeft_eq]

theorem formNNN_toNat : (formNNN h nnn).toNat = h.toNat * 4096 + nnn.toNat := toNat_append_eq h nnn

theorem formXNN_toNat : (formXNN h x nn).toNat = h.toNat * 4096 + x.val * 256 + nn.toNat := by
  have e : (formXNN h x nn).toNat = (h.toNat * 2 ^ 4 + x.val) * 2 ^ 8 + nn.toNat :=
    (toNat_append_eq (h ++ (BitVec.ofFin x : BitVec 4)) nn).trans (by rw [toNat_append_eq]; rfl)
  rw [e]; ring

theorem formXYN_toNat : (formXYN h x y n).toNat = h.toNat * 4096 + x.val * 256 + y.val * 16 + n.toNat := by
  have e : (formXYN h x y n).toNat = ((h.toNat * 2 ^ 4 + x.val) * 2 ^ 4 + y.val) * 2 ^ 4 + n.toNat :=
    (toNat_append_eq (h ++ (BitVec.ofFin x : BitVec 4) ++ (BitVec.ofFin y : BitVec 4)) n).trans
      (by rw [toNat_append_eq, toNat_append_eq]; rfl)
  rw [e]; ring

theorem opcodeOf_toNat (hi lo : Byte) : (opcodeOf hi lo).toNat = hi.toNat * 256 + lo.toNat := toNat_append_eq hi lo

end Sys2Proof
end

