-- ==== Sys2Proof/Laws/State.lean ====
section
/-! SUPPORT. One lemma per field for each named update of State, true by rfl, so that no proof unfolds a record update. -/

namespace Sys2Proof.Machine

/-! ## Composite updates, in terms of the named ones -/

@[simp] theorem State.reject_eq (s : State) (e : ErrorCond) : s.reject e = (s.raise e).advance 2 := rfl
@[simp] theorem State.setFlag_eq (s : State) (b : Bool) : s.setFlag b = s.setReg VF (flagByte b) := rfl
@[simp] theorem State.writeResultFlag_eq (s : State) (x : Reg) (b : Byte) (f : Bool) :
    s.writeResultFlag x b f = (s.setReg x b).setFlag f := rfl
@[simp] theorem State.assign_eq (s : State) (x : Reg) (b : Byte) : s.assign x b = (s.setReg x b).advance 2 := rfl
@[simp] theorem State.assignFlag_eq (s : State) (x : Reg) (b : Byte) (f : Bool) :
    s.assignFlag x b f = (s.writeResultFlag x b f).advance 2 := rfl
@[simp] theorem State.skipIf_eq (s : State) (c : Bool) : s.skipIf c = s.advance (if c then 4 else 2) := rfl
@[simp] theorem State.bumpI_eq (s : State) (x : Reg) :
    s.bumpI x = s.setI (s.i + BitVec.ofNat 16 (blockSize x)) := rfl

/-! ## setReg -/

@[simp] theorem State.setReg_mem (s : State) (r : Reg) (b : Byte) : (s.setReg r b).mem = s.mem := rfl
@[simp] theorem State.setReg_v (s : State) (r : Reg) (b : Byte) : (s.setReg r b).v = s.v.set r b := rfl
@[simp] theorem State.setReg_i (s : State) (r : Reg) (b : Byte) : (s.setReg r b).i = s.i := rfl
@[simp] theorem State.setReg_pc (s : State) (r : Reg) (b : Byte) : (s.setReg r b).pc = s.pc := rfl
@[simp] theorem State.setReg_stack (s : State) (r : Reg) (b : Byte) : (s.setReg r b).stack = s.stack := rfl
@[simp] theorem State.setReg_sp (s : State) (r : Reg) (b : Byte) : (s.setReg r b).sp = s.sp := rfl
@[simp] theorem State.setReg_fb (s : State) (r : Reg) (b : Byte) : (s.setReg r b).fb = s.fb := rfl
@[simp] theorem State.setReg_dt (s : State) (r : Reg) (b : Byte) : (s.setReg r b).dt = s.dt := rfl
@[simp] theorem State.setReg_st (s : State) (r : Reg) (b : Byte) : (s.setReg r b).st = s.st := rfl
@[simp] theorem State.setReg_key (s : State) (r : Reg) (b : Byte) : (s.setReg r b).key = s.key := rfl
@[simp] theorem State.setReg_fr (s : State) (r : Reg) (b : Byte) : (s.setReg r b).fr = s.fr := rfl
@[simp] theorem State.setReg_dbg (s : State) (r : Reg) (b : Byte) : (s.setReg r b).dbg = s.dbg := rfl
@[simp] theorem State.setReg_esr (s : State) (r : Reg) (b : Byte) : (s.setReg r b).esr = s.esr := rfl
@[simp] theorem State.setReg_params (s : State) (r : Reg) (b : Byte) : (s.setReg r b).params = s.params := rfl
@[simp] theorem State.setReg_env (s : State) (r : Reg) (b : Byte) : (s.setReg r b).env = s.env := rfl
@[simp] theorem State.setReg_inputs (s : State) (r : Reg) (b : Byte) : (s.setReg r b).inputs = s.inputs := rfl
@[simp] theorem State.setReg_drawn (s : State) (r : Reg) (b : Byte) : (s.setReg r b).drawn = s.drawn := rfl
@[simp] theorem State.setReg_out (s : State) (r : Reg) (b : Byte) : (s.setReg r b).out = s.out := rfl

/-! ## setI -/

@[simp] theorem State.setI_mem (s : State) (w : Word) : (s.setI w).mem = s.mem := rfl
@[simp] theorem State.setI_v (s : State) (w : Word) : (s.setI w).v = s.v := rfl
@[simp] theorem State.setI_i (s : State) (w : Word) : (s.setI w).i = w := rfl
@[simp] theorem State.setI_pc (s : State) (w : Word) : (s.setI w).pc = s.pc := rfl
@[simp] theorem State.setI_stack (s : State) (w : Word) : (s.setI w).stack = s.stack := rfl
@[simp] theorem State.setI_sp (s : State) (w : Word) : (s.setI w).sp = s.sp := rfl
@[simp] theorem State.setI_fb (s : State) (w : Word) : (s.setI w).fb = s.fb := rfl
@[simp] theorem State.setI_dt (s : State) (w : Word) : (s.setI w).dt = s.dt := rfl
@[simp] theorem State.setI_st (s : State) (w : Word) : (s.setI w).st = s.st := rfl
@[simp] theorem State.setI_key (s : State) (w : Word) : (s.setI w).key = s.key := rfl
@[simp] theorem State.setI_fr (s : State) (w : Word) : (s.setI w).fr = s.fr := rfl
@[simp] theorem State.setI_dbg (s : State) (w : Word) : (s.setI w).dbg = s.dbg := rfl
@[simp] theorem State.setI_esr (s : State) (w : Word) : (s.setI w).esr = s.esr := rfl
@[simp] theorem State.setI_params (s : State) (w : Word) : (s.setI w).params = s.params := rfl
@[simp] theorem State.setI_env (s : State) (w : Word) : (s.setI w).env = s.env := rfl
@[simp] theorem State.setI_inputs (s : State) (w : Word) : (s.setI w).inputs = s.inputs := rfl
@[simp] theorem State.setI_drawn (s : State) (w : Word) : (s.setI w).drawn = s.drawn := rfl
@[simp] theorem State.setI_out (s : State) (w : Word) : (s.setI w).out = s.out := rfl

/-! ## setPc -/

@[simp] theorem State.setPc_mem (s : State) (w : Word) : (s.setPc w).mem = s.mem := rfl
@[simp] theorem State.setPc_v (s : State) (w : Word) : (s.setPc w).v = s.v := rfl
@[simp] theorem State.setPc_i (s : State) (w : Word) : (s.setPc w).i = s.i := rfl
@[simp] theorem State.setPc_pc (s : State) (w : Word) : (s.setPc w).pc = w := rfl
@[simp] theorem State.setPc_stack (s : State) (w : Word) : (s.setPc w).stack = s.stack := rfl
@[simp] theorem State.setPc_sp (s : State) (w : Word) : (s.setPc w).sp = s.sp := rfl
@[simp] theorem State.setPc_fb (s : State) (w : Word) : (s.setPc w).fb = s.fb := rfl
@[simp] theorem State.setPc_dt (s : State) (w : Word) : (s.setPc w).dt = s.dt := rfl
@[simp] theorem State.setPc_st (s : State) (w : Word) : (s.setPc w).st = s.st := rfl
@[simp] theorem State.setPc_key (s : State) (w : Word) : (s.setPc w).key = s.key := rfl
@[simp] theorem State.setPc_fr (s : State) (w : Word) : (s.setPc w).fr = s.fr := rfl
@[simp] theorem State.setPc_dbg (s : State) (w : Word) : (s.setPc w).dbg = s.dbg := rfl
@[simp] theorem State.setPc_esr (s : State) (w : Word) : (s.setPc w).esr = s.esr := rfl
@[simp] theorem State.setPc_params (s : State) (w : Word) : (s.setPc w).params = s.params := rfl
@[simp] theorem State.setPc_env (s : State) (w : Word) : (s.setPc w).env = s.env := rfl
@[simp] theorem State.setPc_inputs (s : State) (w : Word) : (s.setPc w).inputs = s.inputs := rfl
@[simp] theorem State.setPc_drawn (s : State) (w : Word) : (s.setPc w).drawn = s.drawn := rfl
@[simp] theorem State.setPc_out (s : State) (w : Word) : (s.setPc w).out = s.out := rfl

/-! ## advance -/

@[simp] theorem State.advance_mem (s : State) (d : Word) : (s.advance d).mem = s.mem := rfl
@[simp] theorem State.advance_v (s : State) (d : Word) : (s.advance d).v = s.v := rfl
@[simp] theorem State.advance_i (s : State) (d : Word) : (s.advance d).i = s.i := rfl
@[simp] theorem State.advance_pc (s : State) (d : Word) : (s.advance d).pc = s.pc + d := rfl
@[simp] theorem State.advance_stack (s : State) (d : Word) : (s.advance d).stack = s.stack := rfl
@[simp] theorem State.advance_sp (s : State) (d : Word) : (s.advance d).sp = s.sp := rfl
@[simp] theorem State.advance_fb (s : State) (d : Word) : (s.advance d).fb = s.fb := rfl
@[simp] theorem State.advance_dt (s : State) (d : Word) : (s.advance d).dt = s.dt := rfl
@[simp] theorem State.advance_st (s : State) (d : Word) : (s.advance d).st = s.st := rfl
@[simp] theorem State.advance_key (s : State) (d : Word) : (s.advance d).key = s.key := rfl
@[simp] theorem State.advance_fr (s : State) (d : Word) : (s.advance d).fr = s.fr := rfl
@[simp] theorem State.advance_dbg (s : State) (d : Word) : (s.advance d).dbg = s.dbg := rfl
@[simp] theorem State.advance_esr (s : State) (d : Word) : (s.advance d).esr = s.esr := rfl
@[simp] theorem State.advance_params (s : State) (d : Word) : (s.advance d).params = s.params := rfl
@[simp] theorem State.advance_env (s : State) (d : Word) : (s.advance d).env = s.env := rfl
@[simp] theorem State.advance_inputs (s : State) (d : Word) : (s.advance d).inputs = s.inputs := rfl
@[simp] theorem State.advance_drawn (s : State) (d : Word) : (s.advance d).drawn = s.drawn := rfl
@[simp] theorem State.advance_out (s : State) (d : Word) : (s.advance d).out = s.out := rfl

/-! ## raise -/

@[simp] theorem State.raise_mem (s : State) (e : ErrorCond) : (s.raise e).mem = s.mem := rfl
@[simp] theorem State.raise_v (s : State) (e : ErrorCond) : (s.raise e).v = s.v := rfl
@[simp] theorem State.raise_i (s : State) (e : ErrorCond) : (s.raise e).i = s.i := rfl
@[simp] theorem State.raise_pc (s : State) (e : ErrorCond) : (s.raise e).pc = s.pc := rfl
@[simp] theorem State.raise_stack (s : State) (e : ErrorCond) : (s.raise e).stack = s.stack := rfl
@[simp] theorem State.raise_sp (s : State) (e : ErrorCond) : (s.raise e).sp = s.sp := rfl
@[simp] theorem State.raise_fb (s : State) (e : ErrorCond) : (s.raise e).fb = s.fb := rfl
@[simp] theorem State.raise_dt (s : State) (e : ErrorCond) : (s.raise e).dt = s.dt := rfl
@[simp] theorem State.raise_st (s : State) (e : ErrorCond) : (s.raise e).st = s.st := rfl
@[simp] theorem State.raise_key (s : State) (e : ErrorCond) : (s.raise e).key = s.key := rfl
@[simp] theorem State.raise_fr (s : State) (e : ErrorCond) : (s.raise e).fr = s.fr := rfl
@[simp] theorem State.raise_dbg (s : State) (e : ErrorCond) : (s.raise e).dbg = s.dbg := rfl
@[simp] theorem State.raise_esr (s : State) (e : ErrorCond) : (s.raise e).esr = s.esr ||| BitVec.twoPow 8 e.code := rfl
@[simp] theorem State.raise_params (s : State) (e : ErrorCond) : (s.raise e).params = s.params := rfl
@[simp] theorem State.raise_env (s : State) (e : ErrorCond) : (s.raise e).env = s.env := rfl
@[simp] theorem State.raise_inputs (s : State) (e : ErrorCond) : (s.raise e).inputs = s.inputs := rfl
@[simp] theorem State.raise_drawn (s : State) (e : ErrorCond) : (s.raise e).drawn = s.drawn := rfl
@[simp] theorem State.raise_out (s : State) (e : ErrorCond) : (s.raise e).out = s.out ++ [.report e s.pc] := rfl

/-! ## storeBytes -/

@[simp] theorem State.storeBytes_mem (s : State) (a : Nat) (bs : List Byte) : (s.storeBytes a bs).mem = Memory.writeBytes s.params s.mem a bs := rfl
@[simp] theorem State.storeBytes_v (s : State) (a : Nat) (bs : List Byte) : (s.storeBytes a bs).v = s.v := rfl
@[simp] theorem State.storeBytes_i (s : State) (a : Nat) (bs : List Byte) : (s.storeBytes a bs).i = s.i := rfl
@[simp] theorem State.storeBytes_pc (s : State) (a : Nat) (bs : List Byte) : (s.storeBytes a bs).pc = s.pc := rfl
@[simp] theorem State.storeBytes_stack (s : State) (a : Nat) (bs : List Byte) : (s.storeBytes a bs).stack = s.stack := rfl
@[simp] theorem State.storeBytes_sp (s : State) (a : Nat) (bs : List Byte) : (s.storeBytes a bs).sp = s.sp := rfl
@[simp] theorem State.storeBytes_fb (s : State) (a : Nat) (bs : List Byte) : (s.storeBytes a bs).fb = s.fb := rfl
@[simp] theorem State.storeBytes_dt (s : State) (a : Nat) (bs : List Byte) : (s.storeBytes a bs).dt = s.dt := rfl
@[simp] theorem State.storeBytes_st (s : State) (a : Nat) (bs : List Byte) : (s.storeBytes a bs).st = s.st := rfl
@[simp] theorem State.storeBytes_key (s : State) (a : Nat) (bs : List Byte) : (s.storeBytes a bs).key = s.key := rfl
@[simp] theorem State.storeBytes_fr (s : State) (a : Nat) (bs : List Byte) : (s.storeBytes a bs).fr = s.fr := rfl
@[simp] theorem State.storeBytes_dbg (s : State) (a : Nat) (bs : List Byte) : (s.storeBytes a bs).dbg = s.dbg := rfl
@[simp] theorem State.storeBytes_esr (s : State) (a : Nat) (bs : List Byte) : (s.storeBytes a bs).esr = s.esr := rfl
@[simp] theorem State.storeBytes_params (s : State) (a : Nat) (bs : List Byte) : (s.storeBytes a bs).params = s.params := rfl
@[simp] theorem State.storeBytes_env (s : State) (a : Nat) (bs : List Byte) : (s.storeBytes a bs).env = s.env := rfl
@[simp] theorem State.storeBytes_inputs (s : State) (a : Nat) (bs : List Byte) : (s.storeBytes a bs).inputs = s.inputs := rfl
@[simp] theorem State.storeBytes_drawn (s : State) (a : Nat) (bs : List Byte) : (s.storeBytes a bs).drawn = s.drawn := rfl
@[simp] theorem State.storeBytes_out (s : State) (a : Nat) (bs : List Byte) : (s.storeBytes a bs).out = s.out := rfl

/-! ## loadBlock -/

@[simp] theorem State.loadBlock_mem (s : State) (a : Nat) (x : Reg) : (s.loadBlock a x).mem = s.mem := rfl
@[simp] theorem State.loadBlock_i (s : State) (a : Nat) (x : Reg) : (s.loadBlock a x).i = s.i := rfl
@[simp] theorem State.loadBlock_pc (s : State) (a : Nat) (x : Reg) : (s.loadBlock a x).pc = s.pc := rfl
@[simp] theorem State.loadBlock_stack (s : State) (a : Nat) (x : Reg) : (s.loadBlock a x).stack = s.stack := rfl
@[simp] theorem State.loadBlock_sp (s : State) (a : Nat) (x : Reg) : (s.loadBlock a x).sp = s.sp := rfl
@[simp] theorem State.loadBlock_fb (s : State) (a : Nat) (x : Reg) : (s.loadBlock a x).fb = s.fb := rfl
@[simp] theorem State.loadBlock_dt (s : State) (a : Nat) (x : Reg) : (s.loadBlock a x).dt = s.dt := rfl
@[simp] theorem State.loadBlock_st (s : State) (a : Nat) (x : Reg) : (s.loadBlock a x).st = s.st := rfl
@[simp] theorem State.loadBlock_key (s : State) (a : Nat) (x : Reg) : (s.loadBlock a x).key = s.key := rfl
@[simp] theorem State.loadBlock_fr (s : State) (a : Nat) (x : Reg) : (s.loadBlock a x).fr = s.fr := rfl
@[simp] theorem State.loadBlock_dbg (s : State) (a : Nat) (x : Reg) : (s.loadBlock a x).dbg = s.dbg := rfl
@[simp] theorem State.loadBlock_esr (s : State) (a : Nat) (x : Reg) : (s.loadBlock a x).esr = s.esr := rfl
@[simp] theorem State.loadBlock_params (s : State) (a : Nat) (x : Reg) : (s.loadBlock a x).params = s.params := rfl
@[simp] theorem State.loadBlock_env (s : State) (a : Nat) (x : Reg) : (s.loadBlock a x).env = s.env := rfl
@[simp] theorem State.loadBlock_inputs (s : State) (a : Nat) (x : Reg) : (s.loadBlock a x).inputs = s.inputs := rfl
@[simp] theorem State.loadBlock_drawn (s : State) (a : Nat) (x : Reg) : (s.loadBlock a x).drawn = s.drawn := rfl
@[simp] theorem State.loadBlock_out (s : State) (a : Nat) (x : Reg) : (s.loadBlock a x).out = s.out := rfl

/-! ## frameCheck -/

@[simp] theorem State.frameCheck_mem (s : State) : (s.frameCheck).mem = s.mem := rfl
@[simp] theorem State.frameCheck_v (s : State) : (s.frameCheck).v = s.v := rfl
@[simp] theorem State.frameCheck_i (s : State) : (s.frameCheck).i = s.i := rfl
@[simp] theorem State.frameCheck_pc (s : State) : (s.frameCheck).pc = s.pc := rfl
@[simp] theorem State.frameCheck_stack (s : State) : (s.frameCheck).stack = s.stack := rfl
@[simp] theorem State.frameCheck_sp (s : State) : (s.frameCheck).sp = s.sp := rfl
@[simp] theorem State.frameCheck_fb (s : State) : (s.frameCheck).fb = s.fb := rfl
@[simp] theorem State.frameCheck_dt (s : State) : (s.frameCheck).dt = s.dt := rfl
@[simp] theorem State.frameCheck_st (s : State) : (s.frameCheck).st = s.st := rfl
@[simp] theorem State.frameCheck_key (s : State) : (s.frameCheck).key = s.key := rfl
@[simp] theorem State.frameCheck_fr (s : State) : (s.frameCheck).fr = false := rfl
@[simp] theorem State.frameCheck_dbg (s : State) : (s.frameCheck).dbg = s.dbg := rfl
@[simp] theorem State.frameCheck_esr (s : State) : (s.frameCheck).esr = s.esr := rfl
@[simp] theorem State.frameCheck_params (s : State) : (s.frameCheck).params = s.params := rfl
@[simp] theorem State.frameCheck_env (s : State) : (s.frameCheck).env = s.env := rfl
@[simp] theorem State.frameCheck_inputs (s : State) : (s.frameCheck).inputs = s.inputs := rfl
@[simp] theorem State.frameCheck_drawn (s : State) : (s.frameCheck).drawn = s.drawn := rfl
@[simp] theorem State.frameCheck_out (s : State) : (s.frameCheck).out = if s.fr then s.out ++ [.frameReady s.fb] else s.out := rfl

/-! ## timerCheck -/

@[simp] theorem State.timerCheck_mem (s : State) : (s.timerCheck).mem = s.mem := rfl
@[simp] theorem State.timerCheck_v (s : State) : (s.timerCheck).v = s.v := rfl
@[simp] theorem State.timerCheck_i (s : State) : (s.timerCheck).i = s.i := rfl
@[simp] theorem State.timerCheck_pc (s : State) : (s.timerCheck).pc = s.pc := rfl
@[simp] theorem State.timerCheck_stack (s : State) : (s.timerCheck).stack = s.stack := rfl
@[simp] theorem State.timerCheck_sp (s : State) : (s.timerCheck).sp = s.sp := rfl
@[simp] theorem State.timerCheck_fb (s : State) : (s.timerCheck).fb = s.fb := rfl
@[simp] theorem State.timerCheck_dt (s : State) : (s.timerCheck).dt = if s.inputs.tickDue then countDown s.dt else s.dt := rfl
@[simp] theorem State.timerCheck_st (s : State) : (s.timerCheck).st = if s.inputs.tickDue then countDown s.st else s.st := rfl
@[simp] theorem State.timerCheck_key (s : State) : (s.timerCheck).key = s.key := rfl
@[simp] theorem State.timerCheck_fr (s : State) : (s.timerCheck).fr = s.fr := rfl
@[simp] theorem State.timerCheck_dbg (s : State) : (s.timerCheck).dbg = s.dbg := rfl
@[simp] theorem State.timerCheck_esr (s : State) : (s.timerCheck).esr = s.esr := rfl
@[simp] theorem State.timerCheck_params (s : State) : (s.timerCheck).params = s.params := rfl
@[simp] theorem State.timerCheck_env (s : State) : (s.timerCheck).env = s.env := rfl
@[simp] theorem State.timerCheck_inputs (s : State) : (s.timerCheck).inputs = s.inputs := rfl
@[simp] theorem State.timerCheck_drawn (s : State) : (s.timerCheck).drawn = s.drawn := rfl

/-! ## periodicCheck -/

@[simp] theorem State.periodicCheck_mem (s : State) : (s.periodicCheck).mem = s.mem := rfl
@[simp] theorem State.periodicCheck_v (s : State) : (s.periodicCheck).v = s.v := rfl
@[simp] theorem State.periodicCheck_i (s : State) : (s.periodicCheck).i = s.i := rfl
@[simp] theorem State.periodicCheck_pc (s : State) : (s.periodicCheck).pc = s.pc := rfl
@[simp] theorem State.periodicCheck_stack (s : State) : (s.periodicCheck).stack = s.stack := rfl
@[simp] theorem State.periodicCheck_sp (s : State) : (s.periodicCheck).sp = s.sp := rfl
@[simp] theorem State.periodicCheck_fb (s : State) : (s.periodicCheck).fb = s.fb := rfl
@[simp] theorem State.periodicCheck_dt (s : State) : (s.periodicCheck).dt = s.dt := rfl
@[simp] theorem State.periodicCheck_st (s : State) : (s.periodicCheck).st = s.st := rfl
@[simp] theorem State.periodicCheck_key (s : State) : (s.periodicCheck).key = s.key := rfl
@[simp] theorem State.periodicCheck_fr (s : State) : (s.periodicCheck).fr = s.fr := rfl
@[simp] theorem State.periodicCheck_dbg (s : State) : (s.periodicCheck).dbg = s.dbg := rfl
@[simp] theorem State.periodicCheck_esr (s : State) : (s.periodicCheck).esr = s.esr := rfl
@[simp] theorem State.periodicCheck_params (s : State) : (s.periodicCheck).params = s.params := rfl
@[simp] theorem State.periodicCheck_env (s : State) : (s.periodicCheck).env = s.env := rfl
@[simp] theorem State.periodicCheck_inputs (s : State) : (s.periodicCheck).inputs = s.inputs := rfl
@[simp] theorem State.periodicCheck_drawn (s : State) : (s.periodicCheck).drawn = s.drawn := rfl
@[simp] theorem State.periodicCheck_out (s : State) : (s.periodicCheck).out = if s.inputs.ptickDue then s.out ++ [.periodicTick] else s.out := rfl

/-! ## stepReturn -/

@[simp] theorem State.stepReturn_mem (s : State) : (s.stepReturn).mem = s.mem := rfl
@[simp] theorem State.stepReturn_v (s : State) : (s.stepReturn).v = s.v := rfl
@[simp] theorem State.stepReturn_i (s : State) : (s.stepReturn).i = s.i := rfl
@[simp] theorem State.stepReturn_pc (s : State) : (s.stepReturn).pc = s.pc := rfl
@[simp] theorem State.stepReturn_stack (s : State) : (s.stepReturn).stack = s.stack := rfl
@[simp] theorem State.stepReturn_sp (s : State) : (s.stepReturn).sp = s.sp := rfl
@[simp] theorem State.stepReturn_fb (s : State) : (s.stepReturn).fb = s.fb := rfl
@[simp] theorem State.stepReturn_dt (s : State) : (s.stepReturn).dt = s.dt := rfl
@[simp] theorem State.stepReturn_st (s : State) : (s.stepReturn).st = s.st := rfl
@[simp] theorem State.stepReturn_key (s : State) : (s.stepReturn).key = s.key := rfl
@[simp] theorem State.stepReturn_fr (s : State) : (s.stepReturn).fr = s.fr := rfl
@[simp] theorem State.stepReturn_dbg (s : State) : (s.stepReturn).dbg = if s.dbg = .stepPending then .paused else s.dbg := rfl
@[simp] theorem State.stepReturn_esr (s : State) : (s.stepReturn).esr = s.esr := rfl
@[simp] theorem State.stepReturn_params (s : State) : (s.stepReturn).params = s.params := rfl
@[simp] theorem State.stepReturn_env (s : State) : (s.stepReturn).env = s.env := rfl
@[simp] theorem State.stepReturn_inputs (s : State) : (s.stepReturn).inputs = s.inputs := rfl
@[simp] theorem State.stepReturn_drawn (s : State) : (s.stepReturn).drawn = s.drawn := rfl
@[simp] theorem State.stepReturn_out (s : State) : (s.stepReturn).out = s.out := rfl

/-! ## withInputs -/

@[simp] theorem State.withInputs_mem (s : State) (d : Config.Draw) : (s.withInputs d).mem = s.mem := rfl
@[simp] theorem State.withInputs_v (s : State) (d : Config.Draw) : (s.withInputs d).v = s.v := rfl
@[simp] theorem State.withInputs_i (s : State) (d : Config.Draw) : (s.withInputs d).i = s.i := rfl
@[simp] theorem State.withInputs_pc (s : State) (d : Config.Draw) : (s.withInputs d).pc = s.pc := rfl
@[simp] theorem State.withInputs_stack (s : State) (d : Config.Draw) : (s.withInputs d).stack = s.stack := rfl
@[simp] theorem State.withInputs_sp (s : State) (d : Config.Draw) : (s.withInputs d).sp = s.sp := rfl
@[simp] theorem State.withInputs_fb (s : State) (d : Config.Draw) : (s.withInputs d).fb = s.fb := rfl
@[simp] theorem State.withInputs_dt (s : State) (d : Config.Draw) : (s.withInputs d).dt = s.dt := rfl
@[simp] theorem State.withInputs_st (s : State) (d : Config.Draw) : (s.withInputs d).st = s.st := rfl
@[simp] theorem State.withInputs_key (s : State) (d : Config.Draw) : (s.withInputs d).key = s.key := rfl
@[simp] theorem State.withInputs_fr (s : State) (d : Config.Draw) : (s.withInputs d).fr = s.fr := rfl
@[simp] theorem State.withInputs_dbg (s : State) (d : Config.Draw) : (s.withInputs d).dbg = s.dbg := rfl
@[simp] theorem State.withInputs_esr (s : State) (d : Config.Draw) : (s.withInputs d).esr = s.esr := rfl
@[simp] theorem State.withInputs_params (s : State) (d : Config.Draw) : (s.withInputs d).params = s.params := rfl
@[simp] theorem State.withInputs_env (s : State) (d : Config.Draw) : (s.withInputs d).env = s.env := rfl
@[simp] theorem State.withInputs_inputs (s : State) (d : Config.Draw) : (s.withInputs d).inputs = d := rfl
@[simp] theorem State.withInputs_drawn (s : State) (d : Config.Draw) : (s.withInputs d).drawn = s.drawn := rfl
@[simp] theorem State.withInputs_out (s : State) (d : Config.Draw) : (s.withInputs d).out = s.out := rfl

/-! ## withFreeInputs -/

@[simp] theorem State.withFreeInputs_mem (s : State) : (s.withFreeInputs).mem = s.mem := rfl
@[simp] theorem State.withFreeInputs_v (s : State) : (s.withFreeInputs).v = s.v := rfl
@[simp] theorem State.withFreeInputs_i (s : State) : (s.withFreeInputs).i = s.i := rfl
@[simp] theorem State.withFreeInputs_pc (s : State) : (s.withFreeInputs).pc = s.pc := rfl
@[simp] theorem State.withFreeInputs_stack (s : State) : (s.withFreeInputs).stack = s.stack := rfl
@[simp] theorem State.withFreeInputs_sp (s : State) : (s.withFreeInputs).sp = s.sp := rfl
@[simp] theorem State.withFreeInputs_fb (s : State) : (s.withFreeInputs).fb = s.fb := rfl
@[simp] theorem State.withFreeInputs_dt (s : State) : (s.withFreeInputs).dt = s.dt := rfl
@[simp] theorem State.withFreeInputs_st (s : State) : (s.withFreeInputs).st = s.st := rfl
@[simp] theorem State.withFreeInputs_key (s : State) : (s.withFreeInputs).key = s.key := rfl
@[simp] theorem State.withFreeInputs_fr (s : State) : (s.withFreeInputs).fr = s.fr := rfl
@[simp] theorem State.withFreeInputs_dbg (s : State) : (s.withFreeInputs).dbg = s.dbg := rfl
@[simp] theorem State.withFreeInputs_esr (s : State) : (s.withFreeInputs).esr = s.esr := rfl
@[simp] theorem State.withFreeInputs_params (s : State) : (s.withFreeInputs).params = s.params := rfl
@[simp] theorem State.withFreeInputs_env (s : State) : (s.withFreeInputs).env = s.env := rfl
@[simp] theorem State.withFreeInputs_inputs (s : State) : (s.withFreeInputs).inputs = Config.freeDraw s.drawn := rfl
@[simp] theorem State.withFreeInputs_drawn (s : State) : (s.withFreeInputs).drawn = s.drawn + 1 := rfl
@[simp] theorem State.withFreeInputs_out (s : State) : (s.withFreeInputs).out = s.out := rfl

end Sys2Proof.Machine
end

