-- ==== Sys2Proof/Laws/Memory.lean ====
section
/-! SUPPORT. Memory: what a read gives after a write, and that every memory operation keeps the canonical form. -/

namespace Sys2Proof.Machine

open Sys2Proof.Config

variable {p : Params} {m : Memory} {a k : Nat} {b : Byte} {bs : List Byte}

@[simp] theorem Memory.lookup_nil (k : Nat) : Memory.lookup [] k = none := rfl

@[simp] theorem Memory.read_nil (p : Params) (a : Nat) : Memory.read p [] a = Memory.unlisted p a := rfl

theorem Memory.lookup_insert (m : Memory) (a k : Nat) (b : Byte) :
    Memory.lookup (Memory.insert m a b) k = if k = a then some b else Memory.lookup m k := by
  induction m with
  | nil => simp [Memory.insert, Memory.lookup]
  | cons c m ih =>
    obtain ⟨a', c⟩ := c
    simp only [Memory.insert]
    split
    · simp [Memory.lookup]
    · split
      · subst_vars
        simp only [Memory.lookup]
        split <;> rfl
      · simp only [Memory.lookup, ih]
        grind

theorem Memory.lookup_remove (m : Memory) (a k : Nat) :
    Memory.lookup (Memory.remove m a) k = if k = a then none else Memory.lookup m k := by
  induction m with
  | nil => simp [Memory.remove]
  | cons c m ih =>
    obtain ⟨a', c⟩ := c
    simp only [Memory.remove, Memory.lookup]
    grind [Memory.lookup]

/-- A read after a write: the byte written at its address, and what was there at every other. -/
theorem Memory.read_write (p : Params) (m : Memory) (a k : Nat) (b : Byte) :
    Memory.read p (Memory.write p m a b) k = if k = a then b else Memory.read p m k := by
  unfold Memory.write Memory.read
  split <;> simp only [Memory.lookup_insert, Memory.lookup_remove] <;> grind

/-- A read after writing a run of bytes from `a` on. -/
theorem Memory.read_writeBytes (p : Params) (bs : List Byte) :
    ∀ (m : Memory) (a k : Nat), Memory.read p (Memory.writeBytes p m a bs) k =
      if h : a ≤ k ∧ k - a < bs.length then bs[k - a] else Memory.read p m k := by
  induction bs with
  | nil => intro m a k; simp [Memory.writeBytes]
  | cons b bs ih =>
    intro m a k
    rw [Memory.writeBytes, ih, Memory.read_write]
    by_cases h : k = a
    · subst h; simp
    · by_cases h2 : a + 1 ≤ k ∧ k - (a + 1) < bs.length
      · have h3 : a ≤ k ∧ k - a < (b :: bs).length := by simp; omega
        rw [dif_pos h2, dif_pos h3]
        have e : k - a = (k - (a + 1)) + 1 := by omega
        simp [e]
      · have h3 : ¬(a ≤ k ∧ k - a < (b :: bs).length) := by simp; omega
        rw [dif_neg h2, dif_neg h3, if_neg h]

theorem Memory.mem_insert {c : Host.Cell} (h : c ∈ Memory.insert m a b) : c = (a, b) ∨ c ∈ m := by
  induction m with
  | nil => simpa [Memory.insert] using h
  | cons d m ih =>
    obtain ⟨a', d⟩ := d
    simp only [Memory.insert] at h
    grind

theorem Memory.mem_remove {c : Host.Cell} (h : c ∈ Memory.remove m a) : c ∈ m := by
  induction m with
  | nil => simp [Memory.remove] at h
  | cons d m ih =>
    obtain ⟨a', d⟩ := d
    simp only [Memory.remove] at h
    grind

theorem Memory.sorted_insert (h : m.Pairwise (fun c d => c.1 < d.1)) :
    (Memory.insert m a b).Pairwise (fun c d => c.1 < d.1) := by
  induction m with
  | nil => simp [Memory.insert]
  | cons d m ih =>
    obtain ⟨a', d⟩ := d
    rw [List.pairwise_cons] at h
    simp only [Memory.insert]
    split
    · simp only [List.pairwise_cons, List.mem_cons]
      grind
    · split
      · simp only [List.pairwise_cons]
        grind
      · rw [List.pairwise_cons]
        refine ⟨fun c hc => ?_, ih h.2⟩
        rcases Memory.mem_insert hc with rfl | hc
        · simp only; omega
        · exact h.1 c hc

theorem Memory.sorted_remove (h : m.Pairwise (fun c d => c.1 < d.1)) :
    (Memory.remove m a).Pairwise (fun c d => c.1 < d.1) := by
  induction m with
  | nil => simp [Memory.remove]
  | cons d m ih =>
    obtain ⟨a', d⟩ := d
    rw [List.pairwise_cons] at h
    simp only [Memory.remove]
    split
    · exact ih h.2
    · rw [List.pairwise_cons]
      exact ⟨fun c hc => h.1 c (Memory.mem_remove hc), ih h.2⟩

/-- The empty list is in canonical form: reset's memory. -/
theorem Memory.wf_nil (p : Params) : Memory.wf p [] := by simp [Memory.wf]

theorem Memory.wf_write (h : Memory.wf p m) (ha : a < memSize) : Memory.wf p (Memory.write p m a b) := by
  unfold Memory.write
  split
  · exact ⟨Memory.sorted_remove h.1, fun c hc => h.2 c (Memory.mem_remove hc)⟩
  · refine ⟨Memory.sorted_insert h.1, fun c hc => ?_⟩
    rcases Memory.mem_insert hc with rfl | hc
    · exact ⟨ha, ‹_›⟩
    · exact h.2 c hc

theorem Memory.wf_writeBytes (bs : List Byte) :
    ∀ (m : Memory) (a : Nat), Memory.wf p m → a + bs.length ≤ memSize → Memory.wf p (Memory.writeBytes p m a bs) := by
  induction bs with
  | nil => intro m a h _; exact h
  | cons b bs ih =>
    intro m a h hl
    simp only [List.length_cons] at hl
    exact ih _ _ (Memory.wf_write h (by omega)) (by omega)

/-- What a read gives after a store of bytes. -/
theorem State.readByte_storeBytes (s : State) (a k : Nat) (bs : List Byte) :
    (s.storeBytes a bs).readByte k = if h : a ≤ k ∧ k - a < bs.length then bs[k - a] else s.readByte k :=
  Memory.read_writeBytes _ _ _ _ _

/-- Reads depend on memory and the parameters alone. -/
theorem State.readByte_congr {s t : State} (hm : t.mem = s.mem) (hp : t.params = s.params) (a : Nat) :
    t.readByte a = s.readByte a := by
  simp [State.readByte, hm, hp]

end Sys2Proof.Machine
end

