-- ==== Sys2Proof/Laws/Ops.lean ====
section
/-! SUPPORT. What each shared operation does, said once: registers, range checks, fetch, raise, the register block, keys, pixels. -/

namespace Sys2Proof.Machine

open Sys2Proof.Config

@[simp] theorem State.reg_setReg (s : State) (r q : Reg) (b : Byte) :
    (s.setReg r b).reg q = if r = q then b else s.reg q := by
  simp only [State.reg, State.setReg, Fin.getElem_fin, Vector.getElem_set, Fin.ext_iff]

theorem State.reg_congr {s t : State} (h : t.v = s.v) (r : Reg) : t.reg r = s.reg r := by
  simp [State.reg, h]

@[simp] theorem State.reg_advance (s : State) (d : Word) (r : Reg) : (s.advance d).reg r = s.reg r := rfl
@[simp] theorem State.reg_setI (s : State) (w : Word) (r : Reg) : (s.setI w).reg r = s.reg r := rfl
@[simp] theorem State.reg_setPc (s : State) (w : Word) (r : Reg) : (s.setPc w).reg r = s.reg r := rfl
@[simp] theorem State.reg_raise (s : State) (e : ErrorCond) (r : Reg) : (s.raise e).reg r = s.reg r := rfl
@[simp] theorem State.reg_storeBytes (s : State) (a : Nat) (bs : List Byte) (r : Reg) :
    (s.storeBytes a bs).reg r = s.reg r := rfl

@[simp] theorem State.reg_loadBlock (s : State) (a : Nat) (x r : Reg) :
    (s.loadBlock a x).reg r = if r ≤ x then s.readByte (a + r.val) else s.reg r := by
  simp [State.reg, State.loadBlock]

@[simp] theorem State.readByte_advance (s : State) (d : Word) (a : Nat) : (s.advance d).readByte a = s.readByte a := rfl
@[simp] theorem State.readByte_setReg (s : State) (r : Reg) (b : Byte) (a : Nat) :
    (s.setReg r b).readByte a = s.readByte a := rfl
@[simp] theorem State.readByte_setI (s : State) (w : Word) (a : Nat) : (s.setI w).readByte a = s.readByte a := rfl
@[simp] theorem State.readByte_setPc (s : State) (w : Word) (a : Nat) : (s.setPc w).readByte a = s.readByte a := rfl
@[simp] theorem State.readByte_raise (s : State) (e : ErrorCond) (a : Nat) :
    (s.raise e).readByte a = s.readByte a := rfl
@[simp] theorem State.reg_bumpI (s : State) (x r : Reg) : (s.bumpI x).reg r = s.reg r := rfl
@[simp] theorem State.readByte_bumpI (s : State) (x : Reg) (a : Nat) : (s.bumpI x).readByte a = s.readByte a := rfl
@[simp] theorem State.readByte_loadBlock (s : State) (b : Nat) (x : Reg) (a : Nat) :
    (s.loadBlock b x).readByte a = s.readByte a := rfl

/-- When a run of bytes is inside memory. -/
theorem rangeError_eq_none {a n : Nat} : rangeError a n = none ↔ n = 0 ∨ a + n ≤ 4096 := by
  unfold rangeError; split <;> simp_all

/-- When it is not, and which address is reported. -/
theorem rangeError_eq_some {a n bad : Nat} :
    rangeError a n = some bad ↔ n ≠ 0 ∧ 4096 < a + n ∧ bad = max a 4096 := by
  unfold rangeError; split <;> simp_all [eq_comm]

theorem fetch_eq_ok {s : State} {op : Word} :
    fetch s = .ok op ↔ s.pc.toNat + 2 ≤ 4096 ∧ op = opcodeOf (s.readByte s.pc.toNat) (s.readByte (s.pc.toNat + 1)) := by
  unfold fetch
  split
  · rename_i h; rw [rangeError_eq_some] at h; simp; omega
  · rename_i h; rw [rangeError_eq_none] at h; simp [eq_comm]; omega

theorem fetch_eq_error {s : State} {bad : Nat} :
    fetch s = .error bad ↔ 4096 < s.pc.toNat + 2 ∧ bad = max s.pc.toNat 4096 := by
  unfold fetch
  split
  · rename_i h; rw [rangeError_eq_some] at h; simp [h, eq_comm]
  · rename_i h; rw [rangeError_eq_none] at h; simp; omega

@[simp] theorem flagByte_true : flagByte true = 1 := rfl
@[simp] theorem flagByte_false : flagByte false = 0 := rfl

@[simp] theorem State.length_blockRegs (s : State) (x : Reg) : (s.blockRegs x).length = x.val + 1 := by
  simp [State.blockRegs, blockSize]

@[simp] theorem State.getElem_blockRegs (s : State) (x : Reg) (k : Nat) (h : k < (s.blockRegs x).length) :
    (s.blockRegs x)[k] = s.reg ⟨k, by simp at h; omega⟩ := by
  simp [State.blockRegs, State.reg]

@[simp] theorem State.length_readBytes (s : State) (a n : Nat) : (s.readBytes a n).length = n := by
  simp [State.readBytes]

@[simp] theorem State.getElem_readBytes (s : State) (a n k : Nat) (h : k < (s.readBytes a n).length) :
    (s.readBytes a n)[k] = s.readByte (a + k) := by
  simp [State.readBytes]

theorem State.mem_pressedKeys (s : State) (k : Fin 16) : k ∈ s.pressedKeys ↔ s.key[k] ≠ 0 := by
  simp [State.pressedKeys, State.pressed]

/-- Nothing is picked exactly when no key is pressed, whatever the parameter and the draw. -/
theorem pickKey_eq_none {m : KeywaitPick} {d : Nat} {ks : List (Fin 16)} : pickKey m d ks = none ↔ ks = [] := by
  cases m with
  | lowest => simp [pickKey]
  | highest => simp [pickKey]
  | any =>
    simp only [pickKey, List.getElem?_eq_none_iff]
    constructor
    · intro h
      by_contra hne
      have := Nat.mod_lt d (List.length_pos_iff.2 hne)
      omega
    · rintro rfl; simp

/-- What is picked is one of the keys. -/
theorem pickKey_mem {m : KeywaitPick} {d : Nat} {ks : List (Fin 16)} {k : Fin 16} (h : pickKey m d ks = some k) :
    k ∈ ks := by
  cases m with
  | lowest => exact List.mem_of_mem_head? h
  | highest => exact List.mem_of_getLast? h
  | any => exact List.mem_of_getElem? h

/-- What one set bit does: the pixel it lands on is inverted, every other stays. -/
theorem Canvas.plot_pixel (m : DrawEdge) (px py : Nat) (c : Canvas) (x : Fin 64) (y : Fin 32) :
    (c.plot m px py).fb[x][y] = (c.fb[x][y] != decide (place m px py = some (x, y))) := by
  unfold Canvas.plot
  split
  · rename_i h; simp [h]
  · rename_i x' y' h
    by_cases hx : x' = x
    · subst hx
      by_cases hy : y' = y
      · subst hy; simp [h]
      · have : (y' : Nat) ≠ y := fun e => hy (Fin.ext e)
        simp [h, hy, this]
    · have : (x' : Nat) ≠ x := fun e => hx (Fin.ext e)
      simp [h, hx, this]

/-- What one set bit does to the collision: it is set when the pixel it lands on was. -/
theorem Canvas.plot_hit (m : DrawEdge) (px py : Nat) (c : Canvas) :
    (c.plot m px py).hit = (c.hit || match place m px py with | none => false | some (x, y) => c.fb[x][y]) := by
  unfold Canvas.plot; split <;> simp_all

/-- The timer check is `timer_tick()` of R222 when a tick is due, and nothing otherwise. -/
theorem State.timerCheck_out (s : State) :
    s.timerCheck.out = s.out ++ if s.inputs.tickDue = true ∧ s.st = 1 then [.beep] else [] := by
  simp only [State.timerCheck]; split <;> simp_all; split <;> simp_all

end Sys2Proof.Machine
end

