-- ==== Sys2Proof/Laws/PerInstr.lean ====
section
/-! SUPPORT. RowMatch: the encoder follows R64. Every instruction's word, under the mask of its row, is the row's match. -/

namespace Sys2Proof.Laws.RowMatch

open Sys2Proof

/-- The match and mask of an instruction's row, as R64 and spec/opcode_table.json give them. -/
def row : Instr → Word × Word
  | .cls => (0x00E0, 0xFFFF)
  | .ret => (0x00EE, 0xFFFF)
  | .sys _ => (0x0000, 0xF000)
  | .jp _ => (0x1000, 0xF000)
  | .call _ => (0x2000, 0xF000)
  | .seByte _ _ => (0x3000, 0xF000)
  | .sneByte _ _ => (0x4000, 0xF000)
  | .seReg _ _ => (0x5000, 0xF000)
  | .ldByte _ _ => (0x6000, 0xF000)
  | .addByte _ _ => (0x7000, 0xF000)
  | .ldReg _ _ => (0x8000, 0xF00F)
  | .orReg _ _ => (0x8001, 0xF00F)
  | .andReg _ _ => (0x8002, 0xF00F)
  | .xorReg _ _ => (0x8003, 0xF00F)
  | .addReg _ _ => (0x8004, 0xF00F)
  | .subReg _ _ => (0x8005, 0xF00F)
  | .shr _ _ => (0x8006, 0xF00F)
  | .subn _ _ => (0x8007, 0xF00F)
  | .shl _ _ => (0x800E, 0xF00F)
  | .sneReg _ _ => (0x9000, 0xF000)
  | .ldI _ => (0xA000, 0xF000)
  | .jpV0 _ => (0xB000, 0xF000)
  | .rnd _ _ => (0xC000, 0xF000)
  | .drw _ _ _ => (0xD000, 0xF000)
  | .skp _ => (0xE09E, 0xF0FF)
  | .sknp _ => (0xE0A1, 0xF0FF)
  | .ldVxDt _ => (0xF007, 0xF0FF)
  | .ldVxK _ => (0xF00A, 0xF0FF)
  | .ldDtVx _ => (0xF015, 0xF0FF)
  | .ldStVx _ => (0xF018, 0xF0FF)
  | .addI _ => (0xF01E, 0xF0FF)
  | .ldF _ => (0xF029, 0xF0FF)
  | .ldB _ => (0xF033, 0xF0FF)
  | .ldMemVx _ => (0xF055, 0xF0FF)
  | .ldVxMem _ => (0xF065, 0xF0FF)

/-- The word of `i` matches its row. -/
def Statement (i : Instr) : Prop := encodeWord i &&& (row i).2 = (row i).1

theorem and_ones (h : BitVec 4) : h &&& 0xF#4 = h := BitVec.and_allOnes
theorem and_ones_byte (b : Byte) : b &&& 0xFF#8 = b := BitVec.and_allOnes
theorem ofFin_zero : (BitVec.ofFin (0 : Reg) : BitVec 4) = 0#4 := rfl

theorem mask_formNNN (h : BitVec 4) (nnn : Addr12) : formNNN h nnn &&& 0xF000 = formNNN h 0 := by
  have e : (0xF000 : Word) = (0xF#4 ++ 0#12 : BitVec 16) := rfl
  rw [e, formNNN, formNNN, BitVec.and_append, and_ones, BitVec.and_zero]; rfl

theorem mask_formXNN_high (h : BitVec 4) (x : Reg) (nn : Byte) : formXNN h x nn &&& 0xF000 = formXNN h 0 0 := by
  have e : (0xF000 : Word) = (0xF#4 ++ 0#4 ++ 0#8 : BitVec 16) := rfl
  rw [e, formXNN, formXNN, BitVec.and_append, BitVec.and_append, and_ones, BitVec.and_zero, BitVec.and_zero]; rfl

theorem mask_formXNN_low (h : BitVec 4) (x : Reg) (nn : Byte) : formXNN h x nn &&& 0xF0FF = formXNN h 0 nn := by
  have e : (0xF0FF : Word) = (0xF#4 ++ 0#4 ++ 0xFF#8 : BitVec 16) := rfl
  rw [e, formXNN, formXNN, BitVec.and_append, BitVec.and_append, and_ones, and_ones_byte, BitVec.and_zero]; rfl

theorem mask_formXYN_high (h n : BitVec 4) (x y : Reg) : formXYN h x y n &&& 0xF000 = formXYN h 0 0 0 := by
  have e : (0xF000 : Word) = (0xF#4 ++ 0#4 ++ 0#4 ++ 0#4 : BitVec 16) := rfl
  rw [e, formXYN, formXYN, BitVec.and_append, BitVec.and_append, BitVec.and_append, and_ones, BitVec.and_zero,
    BitVec.and_zero, BitVec.and_zero]; rfl

theorem mask_formXYN_low (h n : BitVec 4) (x y : Reg) : formXYN h x y n &&& 0xF00F = formXYN h 0 0 n := by
  have e : (0xF00F : Word) = (0xF#4 ++ 0#4 ++ 0#4 ++ 0xF#4 : BitVec 16) := rfl
  rw [e, formXYN, formXYN, BitVec.and_append, BitVec.and_append, BitVec.and_append, and_ones, and_ones,
    BitVec.and_zero, BitVec.and_zero]; rfl

theorem cls : Statement (.cls) := by unfold Statement; decide
theorem ret : Statement (.ret) := by unfold Statement; decide
theorem sys (nnn : Addr12) : Statement (.sys nnn) := (mask_formNNN 0x0 nnn).trans rfl
theorem jp (nnn : Addr12) : Statement (.jp nnn) := (mask_formNNN 0x1 nnn).trans rfl
theorem call (nnn : Addr12) : Statement (.call nnn) := (mask_formNNN 0x2 nnn).trans rfl
theorem seByte (x : Reg) (nn : Byte) : Statement (.seByte x nn) := (mask_formXNN_high 0x3 x nn).trans rfl
theorem sneByte (x : Reg) (nn : Byte) : Statement (.sneByte x nn) := (mask_formXNN_high 0x4 x nn).trans rfl
theorem seReg (x : Reg) (y : Reg) : Statement (.seReg x y) := (mask_formXYN_high 0x5 0x0 x y).trans rfl
theorem ldByte (x : Reg) (nn : Byte) : Statement (.ldByte x nn) := (mask_formXNN_high 0x6 x nn).trans rfl
theorem addByte (x : Reg) (nn : Byte) : Statement (.addByte x nn) := (mask_formXNN_high 0x7 x nn).trans rfl
theorem ldReg (x : Reg) (y : Reg) : Statement (.ldReg x y) := (mask_formXYN_low 0x8 0x0 x y).trans rfl
theorem orReg (x : Reg) (y : Reg) : Statement (.orReg x y) := (mask_formXYN_low 0x8 0x1 x y).trans rfl
theorem andReg (x : Reg) (y : Reg) : Statement (.andReg x y) := (mask_formXYN_low 0x8 0x2 x y).trans rfl
theorem xorReg (x : Reg) (y : Reg) : Statement (.xorReg x y) := (mask_formXYN_low 0x8 0x3 x y).trans rfl
theorem addReg (x : Reg) (y : Reg) : Statement (.addReg x y) := (mask_formXYN_low 0x8 0x4 x y).trans rfl
theorem subReg (x : Reg) (y : Reg) : Statement (.subReg x y) := (mask_formXYN_low 0x8 0x5 x y).trans rfl
theorem shr (x : Reg) (y : Reg) : Statement (.shr x y) := (mask_formXYN_low 0x8 0x6 x y).trans rfl
theorem subn (x : Reg) (y : Reg) : Statement (.subn x y) := (mask_formXYN_low 0x8 0x7 x y).trans rfl
theorem shl (x : Reg) (y : Reg) : Statement (.shl x y) := (mask_formXYN_low 0x8 0xE x y).trans rfl
theorem sneReg (x : Reg) (y : Reg) : Statement (.sneReg x y) := (mask_formXYN_high 0x9 0x0 x y).trans rfl
theorem ldI (nnn : Addr12) : Statement (.ldI nnn) := (mask_formNNN 0xA nnn).trans rfl
theorem jpV0 (nnn : Addr12) : Statement (.jpV0 nnn) := (mask_formNNN 0xB nnn).trans rfl
theorem rnd (x : Reg) (nn : Byte) : Statement (.rnd x nn) := (mask_formXNN_high 0xC x nn).trans rfl
theorem drw (x : Reg) (y : Reg) (n : Fin 16) : Statement (.drw x y n) := (mask_formXYN_high 0xD (BitVec.ofFin n) x y).trans rfl
theorem skp (x : Reg) : Statement (.skp x) := (mask_formXNN_low 0xE x 0x9E).trans rfl
theorem sknp (x : Reg) : Statement (.sknp x) := (mask_formXNN_low 0xE x 0xA1).trans rfl
theorem ldVxDt (x : Reg) : Statement (.ldVxDt x) := (mask_formXNN_low 0xF x 0x07).trans rfl
theorem ldVxK (x : Reg) : Statement (.ldVxK x) := (mask_formXNN_low 0xF x 0x0A).trans rfl
theorem ldDtVx (x : Reg) : Statement (.ldDtVx x) := (mask_formXNN_low 0xF x 0x15).trans rfl
theorem ldStVx (x : Reg) : Statement (.ldStVx x) := (mask_formXNN_low 0xF x 0x18).trans rfl
theorem addI (x : Reg) : Statement (.addI x) := (mask_formXNN_low 0xF x 0x1E).trans rfl
theorem ldF (x : Reg) : Statement (.ldF x) := (mask_formXNN_low 0xF x 0x29).trans rfl
theorem ldB (x : Reg) : Statement (.ldB x) := (mask_formXNN_low 0xF x 0x33).trans rfl
theorem ldMemVx (x : Reg) : Statement (.ldMemVx x) := (mask_formXNN_low 0xF x 0x55).trans rfl
theorem ldVxMem (x : Reg) : Statement (.ldVxMem x) := (mask_formXNN_low 0xF x 0x65).trans rfl

end Sys2Proof.Laws.RowMatch
end

