-- ==== Sys2Proof/Laws/Step.lean ====
section
/-! SUPPORT. The shapes of an instruction's effect, the fields after a cycle, and what a step is once its iteration's inputs are loaded. -/

namespace Sys2Proof.Machine

open Sys2Proof.Config

/-! ## The four shapes of Safety.lean are what the shared operations do -/

theorem assigned_assign (s : State) (x : Reg) (b : Byte) : Assigned x b s (s.assign x b) := by
  refine ⟨by simp [State.assign], fun r hr => ?_, rfl, fun f hf => ?_⟩
  · simp only [List.mem_singleton] at hr; simp [State.assign, Ne.symm hr]
  · cases f <;> first | exact absurd (by decide) hf | rfl | exact fun _ => rfl

theorem flagAssigned_assignFlag (s : State) (x : Reg) (b : Byte) (f : Bool) :
    FlagAssigned x b (flagByte f) s (s.assignFlag x b f) := by
  refine ⟨by simp [State.assignFlag, State.writeResultFlag, State.setFlag], fun h => ?_, fun r hr => ?_, rfl, fun f hf => ?_⟩
  · simp [State.assignFlag, State.writeResultFlag, State.setFlag, Ne.symm h]
  · simp only [List.mem_cons, List.not_mem_nil, or_false, not_or] at hr
    simp [State.assignFlag, State.writeResultFlag, State.setFlag, Ne.symm hr.1, Ne.symm hr.2]
  · cases f <;> first | exact absurd (by decide) hf | rfl | exact fun _ => rfl

theorem raised_raise (s : State) (e : ErrorCond) : Raised e s (s.raise e) := ⟨rfl, rfl⟩

theorem rejected_reject (s : State) (e : ErrorCond) : Rejected e s (s.reject e) := by
  refine ⟨⟨rfl, rfl⟩, rfl, fun f hf => ?_⟩
  cases f <;> first | exact absurd (by decide) hf | rfl | exact fun _ => rfl

theorem skipped_skipIf (s : State) (c : Bool) : Skipped (c = true) s (s.skipIf c) := by
  refine ⟨fun h => ?_, fun h => ?_, fun f hf => ?_⟩
  · simp [State.skipIf, h]
  · simp [State.skipIf, h]
  · cases f <;> first | exact absurd (by decide) hf | rfl | exact fun _ => rfl

theorem Skipped.of_iff {s t : State} {c d : Prop} (h : Skipped c s t) (e : d ↔ c) : Skipped d s t := by
  rwa [propext e]

/-! ## The fields after a cycle -/

theorem countDown_toNat (b : Byte) : (countDown b).toNat = b.toNat - 1 := by
  unfold countDown
  split
  · simp_all
  · rename_i h
    have : b.toNat ≠ 0 := fun e => h (BitVec.eq_of_toNat_eq e)
    rw [BitVec.toNat_sub_of_le (by rw [BitVec.le_def]; simp; omega)]
    rfl

@[simp] theorem State.afterCycle_mem (s : State) : s.afterCycle.mem = s.mem := rfl
@[simp] theorem State.afterCycle_v (s : State) : s.afterCycle.v = s.v := rfl
@[simp] theorem State.afterCycle_i (s : State) : s.afterCycle.i = s.i := rfl
@[simp] theorem State.afterCycle_pc (s : State) : s.afterCycle.pc = s.pc := rfl
@[simp] theorem State.afterCycle_stack (s : State) : s.afterCycle.stack = s.stack := rfl
@[simp] theorem State.afterCycle_sp (s : State) : s.afterCycle.sp = s.sp := rfl
@[simp] theorem State.afterCycle_fb (s : State) : s.afterCycle.fb = s.fb := rfl
@[simp] theorem State.afterCycle_key (s : State) : s.afterCycle.key = s.key := rfl
@[simp] theorem State.afterCycle_esr (s : State) : s.afterCycle.esr = s.esr := rfl
@[simp] theorem State.afterCycle_params (s : State) : s.afterCycle.params = s.params := rfl
@[simp] theorem State.afterCycle_env (s : State) : s.afterCycle.env = s.env := rfl
@[simp] theorem State.afterCycle_inputs (s : State) : s.afterCycle.inputs = s.inputs := rfl
@[simp] theorem State.afterCycle_drawn (s : State) : s.afterCycle.drawn = s.drawn := rfl

/-- What is emitted after the cycle is only ever appended. -/
theorem State.afterCycle_out (s : State) : s.afterCycle.out = s.out ++
    ((if s.fr = true then [.frameReady s.fb] else []) ++ (if s.inputs.tickDue = true ∧ s.st = 1 then [.beep] else []) ++
      if s.inputs.ptickDue = true then [.periodicTick] else []) := by
  cases h1 : s.fr <;> cases h2 : s.inputs.tickDue <;> cases h3 : s.inputs.ptickDue <;> by_cases h4 : s.st = 1#8 <;>
    simp [State.afterCycle, State.stepReturn, State.periodicCheck, State.timerCheck, State.frameCheck, h1, h2, h3, h4]

/-! ## The step, seen from the loaded state -/

/-- Loading the inputs of an iteration touches the environment's fields only. -/
theorem State.loaded_frame (s : State) : Frame [.env, .inputs, .drawn] s s.loaded := by
  intro f hf
  unfold State.loaded
  split <;> cases f <;> first | exact absurd (by decide) hf | rfl | exact fun _ => rfl

@[simp] theorem State.loaded_pc (s : State) : s.loaded.pc = s.pc := s.loaded_frame .pc (by decide)
@[simp] theorem State.loaded_dbg (s : State) : s.loaded.dbg = s.dbg := s.loaded_frame .dbg (by decide)
@[simp] theorem State.loaded_params (s : State) : s.loaded.params = s.params := s.loaded_frame .params (by decide)
@[simp] theorem State.loaded_readByte (s : State) (a : Nat) : s.loaded.readByte a = s.readByte a :=
  s.loaded_frame .mem (by decide) a

/-- With no host event at the head of the schedule, a step is an iteration. -/
theorem step_eq_iteration {s : State} (h : ∀ e rest, s.env ≠ .host e :: rest) : step s = iteration s.loaded := by
  unfold step envStep State.loaded
  rcases he : s.env with - | ⟨e | d, rest⟩
  · simp only [State.withFreeInputs, he]
  · exact absurd he (h e rest)
  · rfl

/-- With a host event there, it is that event. -/
theorem step_eq_host {s : State} {e : HostEvent} {rest : List EnvEvent} (h : s.env = .host e :: rest) :
    step s = .next (State.hostEvent { s with env := rest } e) := by
  unfold step envStep; rw [h]

/-- A machine that runs performs one cycle and what follows it. -/
theorem step_eq_cycle {s : State} (h : s.runs) : step s = andThen (cycle s.loaded) State.afterCycle := by
  rw [step_eq_iteration h.1, iteration, State.loaded_dbg, if_neg h.2]

end Sys2Proof.Machine
end

