-- ==== Sys2Proof/Tests/Slice0.lean ====
section
/-! SUPPORT. Tests. Expected values come from spec/95_test_vectors.md (the row is named) or from the rule's own example. -/

namespace Sys2Proof.Tests

open Sys2Proof Sys2Proof.Machine Sys2Proof.Config

/-! ## Well-formedness: the one ill-formed term, at its two values (R65) -/

theorem test_wellFormed_refuses_sys_cls : (Instr.sys 0x0E0).wellFormed = false := by decide
theorem test_wellFormed_refuses_sys_ret : (Instr.sys 0x0EE).wellFormed = false := by decide
theorem test_wellFormed_accepts_neighbours : (Instr.sys 0x0E1).wellFormed = true ∧ (Instr.sys 0x1E0).wellFormed = true := by
  decide

/-! ## Decoding: a word for every constructor, from the patterns of R64 -/

/-- The instruction two bytes decode to under the default parameters. -/
def dec (hi lo : Byte) : Except Reject (Instr × List Byte) := decode false [hi, lo]

theorem test_decode_group0 : dec 0x00 0xE0 = .ok (.cls, []) ∧ dec 0x00 0xEE = .ok (.ret, []) ∧
    dec 0x01 0x23 = .ok (.sys 0x123, []) ∧ dec 0x0A 0xEE = .ok (.sys 0xAEE, []) ∧ dec 0x01 0xE0 = .ok (.sys 0x1E0, []) := by
  decide
theorem test_decode_flow : dec 0x1A 0xBC = .ok (.jp 0xABC, []) ∧ dec 0x23 0x01 = .ok (.call 0x301, []) ∧
    dec 0xBF 0xFE = .ok (.jpV0 0xFFE, []) := by decide
theorem test_decode_skips : dec 0x3A 0x42 = .ok (.seByte 0xA 0x42, []) ∧ dec 0x4A 0x42 = .ok (.sneByte 0xA 0x42, []) ∧
    dec 0x51 0x20 = .ok (.seReg 1 2, []) ∧ dec 0x91 0x20 = .ok (.sneReg 1 2, []) ∧ dec 0xE4 0x9E = .ok (.skp 4, []) ∧
    dec 0xE9 0xA1 = .ok (.sknp 9, []) := by decide
theorem test_decode_assign : dec 0x6F 0xFE = .ok (.ldByte 0xF 0xFE, []) ∧ dec 0x70 0x03 = .ok (.addByte 0 3, []) ∧
    dec 0x81 0x20 = .ok (.ldReg 1 2, []) ∧ dec 0x81 0x21 = .ok (.orReg 1 2, []) ∧ dec 0x81 0x22 = .ok (.andReg 1 2, []) ∧
    dec 0x81 0x23 = .ok (.xorReg 1 2, []) := by decide
theorem test_decode_arith : dec 0x8A 0xB4 = .ok (.addReg 0xA 0xB, []) ∧ dec 0x81 0x25 = .ok (.subReg 1 2, []) ∧
    dec 0x81 0x26 = .ok (.shr 1 2, []) ∧ dec 0x81 0x27 = .ok (.subn 1 2, []) ∧ dec 0x81 0x2E = .ok (.shl 1 2, []) := by decide
theorem test_decode_index : dec 0xA2 0xF0 = .ok (.ldI 0x2F0, []) ∧ dec 0xF3 0x1E = .ok (.addI 3, []) ∧
    dec 0xF2 0x29 = .ok (.ldF 2, []) ∧ dec 0xF3 0x33 = .ok (.ldB 3, []) ∧ dec 0xF2 0x55 = .ok (.ldMemVx 2, []) ∧
    dec 0xF2 0x65 = .ok (.ldVxMem 2, []) := by decide
theorem test_decode_rest : dec 0xC1 0x0F = .ok (.rnd 1 0x0F, []) ∧ dec 0xD1 0x25 = .ok (.drw 1 2 5, []) ∧
    dec 0xF1 0x07 = .ok (.ldVxDt 1, []) ∧ dec 0xF3 0x0A = .ok (.ldVxK 3, []) ∧ dec 0xF1 0x15 = .ok (.ldDtVx 1, []) ∧
    dec 0xF1 0x18 = .ok (.ldStVx 1, []) := by decide

/-- LU7 to LU15. -/
theorem test_decode_unknown : dec 0x81 0x28 = .error .unknown ∧ dec 0x81 0x2F = .error .unknown ∧
    dec 0xE1 0x9F = .error .unknown ∧ dec 0xF1 0x75 = .error .unknown ∧ dec 0xFF 0xFF = .error .unknown := by decide

/-- LU16, LU17: the low nibble of groups 5 and 9 under both values of STRICT_LOW_NIBBLE. -/
theorem test_decode_low_nibble : dec 0x50 0x01 = .ok (.seReg 0 0, []) ∧ dec 0x9A 0xB7 = .ok (.sneReg 0xA 0xB, []) ∧
    decode true [0x50, 0x01] = .error .unknown ∧ decode true [0x9A, 0xB7] = .error .unknown := by decide

theorem test_decode_truncated : decode false [] = .error .truncated ∧ decode false [0x60] = .error .truncated := by decide
theorem test_decode_table_word : decodeTableWord 16 0x8AB4 = some (.addReg 0xA 0xB) ∧ decodeTableWord 16 0xF175 = none := by
  decide

/-! ## One step of one instruction -/

/-- An iteration in which no tick is due. -/
def quiet : Draw := { tickDue := false, ptickDue := false, rnd := 0, pick := 0 }

/-- After reset, running, with the opcode under test at 0x200 and one quiet iteration to come. -/
def start (w : Nat) : State := { State.reset.withFetchWord 16 w with env := [.iterate quiet] }

/-- Set registers. -/
def State.withRegs (s : State) (rs : List (Reg × Byte)) : State := rs.foldl (fun s r => s.setReg r.1 r.2) s

/-- Set bytes of memory. -/
def State.withBytes (s : State) (a : Nat) (bs : List Byte) : State := s.storeBytes a bs

/-- The state after one step. -/
def after (s : State) : State :=
  match Machine.step s with
  | .next t => t
  | .fault _ => s
  | .refused _ => s

/-- S1 of Part 2.1: F1, F4. -/
theorem test_jp : (after (start 0x1ABC)).pc = 0xABC ∧ (after (start 0x1FFF)).pc = 0xFFF := by decide
/-- F5. -/
theorem test_call : (after (start 0x2300)).pc = 0x300 ∧ (after (start 0x2300)).sp = 1 ∧
    (after (start 0x2300)).stack[0] = 0x200 := by decide
/-- F7. -/
theorem test_call_full : (after { start 0x2300 with sp := 16 }).pc = 0x202 ∧ (after { start 0x2300 with sp := 16 }).esr = 0x08 ∧
    (after { start 0x2300 with sp := 16 }).out = [.report (.stackOverflow 0x300) 0x200] := by decide
/-- F8, F10. -/
theorem test_ret : (after { start 0x00EE with sp := 1, stack := (start 0).stack.set 0 0x0456 }).pc = 0x458 ∧
    (after { start 0x00EE with sp := 1, stack := (start 0).stack.set 0 0xFFFE }).pc = 0 := by decide
/-- F9. -/
theorem test_ret_empty : (after (start 0x00EE)).pc = 0x202 ∧ (after (start 0x00EE)).esr = 0x10 := by decide
/-- F12, F14. -/
theorem test_jpV0 : (after (State.withRegs (start 0xBFFF) [(0, 0xFF)])).pc = 0x10FE ∧
    (after (State.withRegs (start 0xB200) [(2, 0x40)])).pc = 0x200 := by decide

/-- K1, K2. -/
theorem test_seByte : (after (State.withRegs (start 0x3A42) [(0xA, 0x42)])).pc = 0x204 ∧
    (after (State.withRegs (start 0x3A42) [(0xA, 0x43)])).pc = 0x202 := by decide
/-- K3, K4. -/
theorem test_sneByte : (after (State.withRegs (start 0x4A42) [(0xA, 0x42)])).pc = 0x202 ∧
    (after (State.withRegs (start 0x4A42) [(0xA, 0x43)])).pc = 0x204 := by decide
/-- K5, K6. -/
theorem test_seReg : (after (State.withRegs (start 0x5120) [(1, 7), (2, 7)])).pc = 0x204 ∧
    (after (State.withRegs (start 0x5120) [(1, 7), (2, 8)])).pc = 0x202 := by decide
/-- K8, K9. -/
theorem test_sneReg : (after (State.withRegs (start 0x9120) [(1, 7), (2, 8)])).pc = 0x204 ∧
    (after (State.withRegs (start 0x9120) [(1, 7), (2, 7)])).pc = 0x202 := by decide
/-- K12, K13. -/
theorem test_skp : (after (State.withRegs ((start 0xE49E).setKey 5 1) [(4, 5)])).pc = 0x204 ∧
    (after (State.withRegs ((start 0xE49E).setKey 6 1) [(4, 5)])).pc = 0x202 := by decide
/-- K16. -/
theorem test_skp_range : (after (State.withRegs (start 0xE49E) [(4, 0x10)])).pc = 0x202 ∧
    (after (State.withRegs (start 0xE49E) [(4, 0x10)])).out = [.report (.keyRange 0x10) 0x200] := by decide
/-- K14, K15. -/
theorem test_sknp : (after (State.withRegs (start 0xE4A1) [(4, 5)])).pc = 0x204 ∧
    (after (State.withRegs ((start 0xE4A1).setKey 5 1) [(4, 5)])).pc = 0x202 := by decide
/-- K17. -/
theorem test_sknp_range : (after (State.withRegs (start 0xE4A1) [(4, 0xFF)])).pc = 0x202 ∧
    (after (State.withRegs (start 0xE4A1) [(4, 0xFF)])).esr = 0x80 := by decide

/-- A1, A2. -/
theorem test_ldByte : (after (start 0x6005)).reg 0 = 5 ∧ (after (start 0x6FFF)).reg 0xF = 0xFF := by decide
/-- A5. -/
theorem test_addByte : (after (State.withRegs (start 0x7001) [(0, 0xFF), (0xF, 1)])).reg 0 = 0 ∧
    (after (State.withRegs (start 0x7001) [(0, 0xFF), (0xF, 1)])).reg 0xF = 1 := by decide
/-- A6. -/
theorem test_ldReg : (after (State.withRegs (start 0x8120) [(1, 1), (2, 0x99)])).reg 1 = 0x99 := by decide
/-- A7. -/
theorem test_orReg : (after (State.withRegs (start 0x8121) [(1, 0xF0), (2, 0x0F), (0xF, 0x55)])).reg 1 = 0xFF ∧
    (after (State.withRegs (start 0x8121) [(1, 0xF0), (2, 0x0F), (0xF, 0x55)])).reg 0xF = 0x55 := by decide
/-- A8. -/
theorem test_andReg : (after (State.withRegs (start 0x8122) [(1, 0xF3), (2, 0x3F)])).reg 1 = 0x33 := by decide
/-- A9. -/
theorem test_xorReg : (after (State.withRegs (start 0x8123) [(1, 0xFF), (2, 0x0F)])).reg 1 = 0xF0 := by decide
/-- A13, A15. -/
theorem test_addReg : (after (State.withRegs (start 0x8124) [(1, 0xFF), (2, 0xFF)])).reg 1 = 0xFE ∧
    (after (State.withRegs (start 0x8124) [(1, 0xFF), (2, 0xFF)])).reg 0xF = 1 ∧
    (after (State.withRegs (start 0x8124) [(1, 0xFF), (0xF, 1)])).reg 0xF = 0 := by decide
/-- A33, A43. -/
theorem test_addReg_flag_operand : (after (State.withRegs (start 0x8F14) [(0xF, 0x10), (1, 0x20)])).reg 0xF = 0 ∧
    (after (State.withRegs (start 0x81F4) [(1, 0xFF), (0xF, 1)])).reg 1 = 0 ∧
    (after (State.withRegs (start 0x81F4) [(1, 0xFF), (0xF, 1)])).reg 0xF = 1 := by decide
/-- A17, A19. -/
theorem test_subReg : (after (State.withRegs (start 0x8125) [(1, 1), (2, 2), (0xF, 1)])).reg 1 = 0xFF ∧
    (after (State.withRegs (start 0x8125) [(1, 1), (2, 2), (0xF, 1)])).reg 0xF = 0 ∧
    (after (State.withRegs (start 0x8125) [(1, 5), (2, 5)])).reg 0xF = 1 := by decide
/-- A21, A24. -/
theorem test_shr : (after (State.withRegs (start 0x8126) [(1, 5), (2, 0xEE)])).reg 1 = 2 ∧
    (after (State.withRegs (start 0x8126) [(1, 5), (2, 0xEE)])).reg 0xF = 1 ∧
    (after (State.withRegs (start 0x8126) [(1, 0xFF)])).reg 1 = 0x7F := by decide
/-- A25, A26. -/
theorem test_subn : (after (State.withRegs (start 0x8127) [(1, 2), (2, 1)])).reg 1 = 0xFF ∧
    (after (State.withRegs (start 0x8127) [(1, 2), (2, 1), (0xF, 1)])).reg 0xF = 0 ∧
    (after (State.withRegs (start 0x8127) [(1, 1), (2, 2)])).reg 0xF = 1 := by decide
/-- A28, A29. -/
theorem test_shl : (after (State.withRegs (start 0x812E) [(1, 0x81), (2, 0xEE)])).reg 1 = 2 ∧
    (after (State.withRegs (start 0x812E) [(1, 0x81), (2, 0xEE)])).reg 0xF = 1 ∧
    (after (State.withRegs (start 0x812E) [(1, 0x40), (0xF, 1)])).reg 0xF = 0 := by decide

/-- M2. -/
theorem test_ldI : (after { start 0xAFFF with i := 0x1234 }).i = 0x0FFF := by decide
/-- M4, M8. -/
theorem test_addI : (after (State.withRegs { start 0xF11E with i := 0xFFE } [(1, 5)])).i = 0x1003 ∧
    (after (State.withRegs { start 0xF11E with i := 0xFFE } [(1, 5)])).reg 0xF = 1 ∧
    (after (State.withRegs { start 0xF11E with i := 0xFFFF } [(1, 2)])).i = 1 := by decide
/-- M5: no overflow at 0xFFF, under set_only and under set_clear. -/
theorem test_addI_modes : (after (State.withRegs { start 0xF11E with i := 0xFFE } [(1, 1), (0xF, 1)])).reg 0xF = 1 ∧
    (after (State.withRegs { start 0xF11E with i := 0xFFE, params := { defaultParams with fx1eVfMode := .setClear } }
      [(1, 1), (0xF, 1)])).reg 0xF = 0 := by decide
/-- M13, M14. -/
theorem test_ldF : (after (State.withRegs (start 0xF229) [(2, 0x10)])).i = 0x50 ∧
    (after (State.withRegs (start 0xF229) [(2, 0xFF)])).i = 0x4FB := by decide
/-- M15. -/
theorem test_ldB : (after (State.withRegs { start 0xF333 with i := 0x300 } [(3, 0xEA)])).readBytes 0x300 3 = [2, 3, 4] := by
  decide
/-- M20. -/
theorem test_ldB_range : (after (State.withRegs { start 0xF333 with i := 0xFFE } [(3, 0x7B)])).out =
    [.report (.addrRange 4096 .write) 0x200] ∧
    (after (State.withRegs { start 0xF333 with i := 0xFFE } [(3, 0x7B)])).readBytes 0xFFE 2 = [0, 0] := by decide
/-- M22. -/
theorem test_ldMemVx :
    (after (State.withRegs { start 0xF255 with i := 0x400 } [(0, 0x11), (1, 0x22), (2, 0x33), (3, 0x44)])).readBytes 0x400 4 =
      [0x11, 0x22, 0x33, 0] ∧
    (after (State.withRegs { start 0xF255 with i := 0x400 } [(0, 0x11), (1, 0x22), (2, 0x33), (3, 0x44)])).i = 0x403 := by
  decide
/-- M24. -/
theorem test_ldMemVx_range : (after (State.withRegs { start 0xF155 with i := 0xFFF } [(0, 0x11), (1, 0x22)])).i = 0xFFF ∧
    (after (State.withRegs { start 0xF155 with i := 0xFFF } [(0, 0x11), (1, 0x22)])).readByte 0xFFF = 0 := by decide
/-- M26. -/
theorem test_ldVxMem :
    (after (State.withRegs (State.withBytes { start 0xF265 with i := 0x400 } 0x400 [0x11, 0x22, 0x33]) [(3, 0x99)])).reg 2 = 0x33 ∧
    (after (State.withRegs (State.withBytes { start 0xF265 with i := 0x400 } 0x400 [0x11, 0x22, 0x33]) [(3, 0x99)])).reg 3 = 0x99 ∧
    (after (State.withRegs (State.withBytes { start 0xF265 with i := 0x400 } 0x400 [0x11, 0x22, 0x33]) [(3, 0x99)])).i = 0x403 := by
  decide
/-- M28. -/
theorem test_ldVxMem_range : (after { start 0xFF65 with i := 0xFF1 }).out = [.report (.addrRange 4096 .read) 0x200] ∧
    (after { start 0xFF65 with i := 0xFF1 }).i = 0xFF1 := by decide

/-- RN1. -/
theorem test_rnd : (after { start 0xC10F with env := [.iterate { quiet with rnd := 0xA7 }] }).reg 1 = 7 := by decide

/-- T1, T5. -/
theorem test_ldVxDt : (after { start 0xF107 with dt := 0x2A }).reg 1 = 0x2A ∧
    (after { start 0xF107 with dt := 5, env := [.iterate { quiet with tickDue := true }] }).reg 1 = 5 ∧
    (after { start 0xF107 with dt := 5, env := [.iterate { quiet with tickDue := true }] }).dt = 4 := by decide
/-- T2, T4. -/
theorem test_ldDtVx : (after (State.withRegs (start 0xF115) [(1, 0x3C)])).dt = 0x3C ∧
    (after (State.withRegs { start 0xF115 with env := [.iterate { quiet with tickDue := true }] } [(1, 0x3C)])).dt = 0x3B := by
  decide
/-- T3. -/
theorem test_ldStVx : (after (State.withRegs (start 0xF118) [(1, 2)])).st = 2 ∧
    (after (State.withRegs (start 0xF118) [(1, 2)])).out = [] := by decide

/-- IN1. -/
theorem test_ldVxK_waits : (after (State.withRegs (start 0xF30A) [(3, 0xAA)])).pc = 0x200 ∧
    (after (State.withRegs (start 0xF30A) [(3, 0xAA)])).reg 3 = 0xAA := by decide
/-- IN4, under lowest and under highest. -/
theorem test_ldVxK_pick : (after (((start 0xF30A).setKey 4 1).setKey 9 1)).reg 3 = 4 ∧
    (after { ((start 0xF30A).setKey 4 1).setKey 9 1 with params := { defaultParams with keywaitPick := .highest } }).reg 3 = 9 := by
  decide

/-- LU2. -/
theorem test_sys : (after (start 0x0123)).out = [.report (.notImplemented 0x0123) 0x200] ∧ (after (start 0x0123)).pc = 0x202 ∧
    (after (start 0x0123)).esr = 0x04 := by decide
/-- LU7. -/
theorem test_unknown : (after (start 0x8128)).out = [.report (.unknownOpcode 0x8128) 0x200] ∧ (after (start 0x8128)).pc = 0x202 ∧
    (after (start 0x8128)).esr = 0x02 := by decide

/-- The pixels of a framebuffer that are set, column by column. -/
def litOf (fb : Framebuffer) : List (Nat × Nat) :=
  (List.range 64).flatMap fun px => ((List.range 32).filter fun py => (fb[px]?.bind (·[py]?)) = some true).map fun py => (px, py)

/-- FB with one pixel set. -/
def onePixel : Framebuffer := blankScreen.set 0 ((Vector.replicate 32 false).set 0 true)

/-- DR1. -/
theorem test_cls : litOf (after { start 0x00E0 with fb := onePixel }).fb = [] ∧ (after (start 0x00E0)).reg 0xF = 1 ∧
    (after (start 0x00E0)).fr = false := by decide +kernel
/-- DR5, under wrap and under clip. -/
theorem test_drw_edge :
    litOf (after (State.withRegs (State.withBytes { start 0xD011 with i := 0x300 } 0x300 [0xFF]) [(0, 60), (1, 31)])).fb =
      [(0, 31), (1, 31), (2, 31), (3, 31), (60, 31), (61, 31), (62, 31), (63, 31)] ∧
    litOf (after (State.withRegs (State.withBytes
      { start 0xD011 with i := 0x300, params := { defaultParams with drawEdge := .clip } } 0x300 [0xFF]) [(0, 60), (1, 31)])).fb =
      [(60, 31), (61, 31), (62, 31), (63, 31)] := by decide +kernel
/-- DR4, DR3. -/
theorem test_drw_collision :
    (after (State.withBytes { start 0xD011 with i := 0x300, fb := onePixel } 0x300 [0x80])).reg 0xF = 1 ∧
    litOf (after (State.withBytes { start 0xD011 with i := 0x300, fb := onePixel } 0x300 [0x80])).fb = [] ∧
    litOf (after (State.withBytes { start 0xD011 with i := 0x300 } 0x300 [0x01])).fb = [(7, 0)] := by decide +kernel

/-! ## Fetch, scheduler, host events -/

/-- E3, E5. -/
theorem test_fetch_range :
    (after { start 0 with pc := 0xFFF, dt := 3, env := [.iterate { quiet with tickDue := true }] }).out =
      [.report (.addrRange 4096 .fetch) 0xFFF] ∧
    (after { start 0 with pc := 0xFFF, dt := 3, env := [.iterate { quiet with tickDue := true }] }).pc = 0xFFF ∧
    (after { start 0 with pc := 0xFFF, dt := 3, env := [.iterate { quiet with tickDue := true }] }).dt = 2 := by decide
/-- A stepped iteration that clears the screen, with the tone and both ticks due. -/
def stepped : State :=
  { start 0x00E0 with dbg := .stepPending, st := 1, env := [.iterate { quiet with tickDue := true, ptickDue := true }] }

/-- DB8: the order of the events of an iteration, and the return of a step. -/
theorem test_event_order : (after stepped).out = [.frameReady blankScreen, .beep, .periodicTick] ∧ (after stepped).st = 0 ∧
    (after stepped).statusPort = 1 := by decide +kernel
/-- DB1: the machine is Paused after reset and an iteration does nothing. -/
theorem test_paused_after_reset : State.reset.paused = true ∧ State.reset.stepOver = false ∧
    (after State.reset).pc = 0x200 ∧ (after State.reset).out = [] := by decide
/-- Z1 and Z3. -/
theorem test_reset_image :
    (after { start 0 with env := [.host (.reset (some [0x60, 0x05, 0x70, 0x03, 0x12, 0x04]))] }).readBytes 0x200 7 =
      [0x60, 0x05, 0x70, 0x03, 0x12, 0x04, 0x00] ∧
    (after { start 0 with env := [.host (.reset none)] }).out = [.report (.loadFail 0) 0x200] := by decide
/-- Z8. -/
theorem test_font : State.reset.readBytes 0 5 = [0xF0, 0x90, 0x90, 0x90, 0xF0] ∧
    State.reset.readBytes 0x4B 5 = [0xF0, 0x80, 0xF0, 0x80, 0x80] := by decide

/-- The state after a host event. -/
def afterHost (s : State) (e : HostEvent) : State := after { s with env := [.host e] }

/-- DB2, DB6 and the last transition of R232. -/
theorem test_debug_signals : (afterHost State.reset .step).statusPort = 2 ∧ (afterHost (start 0) .step).statusPort = 0 ∧
    (afterHost State.reset .cont).statusPort = 0 ∧ (afterHost (start 0) .pause).statusPort = 1 := by decide
/-- DB10, DB11. -/
theorem test_keys : (afterHost (start 0) (.keySet 16)).key = (start 0).key ∧ (afterHost (start 0) (.keySet 3)).key[3] = 1 ∧
    (afterHost ((start 0).setKey 3 1) (.keyClear 3)).key[3] = 0 := by decide

/-! ## Witnesses: for each obligation with hypotheses, data that meet them, at the edges of the ranges -/

theorem start_runs (w : Nat) : (start w).runs := ⟨fun _ _ h => (nomatch h), fun h => (nomatch h)⟩

theorem witness_DecodeOfEncodeIsIdentity :
    (Instr.sys 0xFFF).wellFormed = true ∧ (Instr.drw 15 15 15).wellFormed = true := by decide
theorem witness_StrictDecodeHasOneEncoding :
    decodeWord true 0x5120 = .ok (.seReg 1 2) ∧ decodeWord true 0x0000 = .ok (.sys 0) := by decide
theorem witness_DecoderFollowsTheOpcodeMap :
    decodeWord false 0x9AB7 = .ok (.sneReg 0xA 0xB) ∧ decodeWord true 0x9AB7 = .error .unknown := by decide

theorem witness_ResetValues : 80 ≤ 4095 ∧ 4095 < 4096 := by decide
theorem witness_ResetLoadsTheImage :
    ({ start 0 with env := [.host (.reset (some (List.replicate 3584 0xAB)))] } : State).env =
      .host (.reset (some (List.replicate 3584 0xAB))) :: [] ∧ (List.replicate 3584 (0xAB : Byte)).length ≤ 3584 := by
  exact ⟨rfl, List.length_replicate.le⟩
theorem witness_ResetWithoutUsableImage_none :
    ({ start 0 with env := [.host (.reset none)] } : State).env = .host (.reset none) :: [] ∧
    ∀ bytes : List Byte, (none : Option (List Byte)) = some bytes → 3584 < bytes.length := ⟨rfl, fun _ h => (nomatch h)⟩
theorem witness_ResetWithoutUsableImage_oversize :
    ({ start 0 with env := [.host (.reset (some (List.replicate 3585 0)))] } : State).env =
      .host (.reset (some (List.replicate 3585 0))) :: [] ∧
    ∀ bytes : List Byte, some (List.replicate 3585 (0 : Byte)) = some bytes → 3584 < bytes.length := by
  refine ⟨rfl, fun bytes h => ?_⟩
  rw [← Option.some.inj h, List.length_replicate]; omega
theorem witness_DebugSignals :
    ({ start 0 with env := [.host .pause] } : State).env = .host .pause :: [] ∧
    ({ State.reset with env := [.host .cont] } : State).env = .host .cont :: [] ∧
    ({ State.reset with env := [.host .step] } : State).env = .host .step :: [] := ⟨rfl, rfl, rfl⟩
theorem witness_KeyEvents :
    ({ start 0 with env := [.host (.keySet 15)] } : State).env = .host (.keySet 15) :: [] ∧
    ({ start 0 with env := [.host (.keyClear 16)] } : State).env = .host (.keyClear 16) :: [] := ⟨rfl, rfl⟩
theorem witness_PausedIterationIdles :
    State.reset.dbg = .paused ∧ ∀ e rest, State.reset.env ≠ .host e :: rest := ⟨rfl, fun _ _ h => (nomatch h)⟩

theorem witness_StepRunsTheDecodedInstruction : (start 0x6005).runs ∧ (start 0x6005).pc.toNat + 2 ≤ 4096 ∧
    decode (start 0x6005).params.strictLowNibble
      [(start 0x6005).readByte (start 0x6005).pc.toNat, (start 0x6005).readByte ((start 0x6005).pc.toNat + 1)] =
      .ok (.ldByte 0 5, []) ∧
    ∃ t, exec (.ldByte 0 5) (start 0x6005).loaded = .next t := by
  refine ⟨start_runs _, by decide, by decide, _, rfl⟩
/-- A running machine with pc anywhere. -/
def at_ (pc : Word) : State := { start 0 with pc := pc }
theorem at_runs (pc : Word) : (at_ pc).runs := ⟨fun _ _ h => (nomatch h), fun h => (nomatch h)⟩
theorem witness_FetchOutsideMemory : ((at_ 4095).runs ∧ 4094 < (at_ 4095).pc.toNat) ∧
    ((at_ 0xFFFF).runs ∧ 4094 < (at_ 0xFFFF).pc.toNat) := by
  refine ⟨⟨at_runs _, by decide⟩, at_runs _, by decide⟩
/-- The last word of memory holds 0x8128 and pc points at it. -/
def lastWord : State := State.withBytes (at_ 4094) 4094 [0x81, 0x28]
theorem witness_UnknownOpcodeStep : lastWord.runs ∧ lastWord.pc.toNat + 2 ≤ 4096 ∧
    decodeWord lastWord.params.strictLowNibble
      (opcodeOf (lastWord.readByte lastWord.pc.toNat) (lastWord.readByte (lastWord.pc.toNat + 1))) = .error .unknown := by
  refine ⟨at_runs 4094, by decide, by decide⟩
theorem witness_FetchWordIsFetched : 0xFFFF < 65536 := by decide

theorem witness_CallPushesItsOwnAddress : (start 0).sp.val = (0 : Fin 16).val ∧
    ({ start 0 with sp := 15 } : State).sp.val = (15 : Fin 16).val ∧ ({ start 0 with sp := 16 } : State).sp.val = 16 := by decide
theorem witness_ReturnPopsAndAddsTwo : ({ start 0 with sp := 1 } : State).sp.val = (0 : Fin 16).val + 1 ∧
    ({ start 0 with sp := 16 } : State).sp.val = (15 : Fin 16).val + 1 ∧ (start 0).sp.val = 0 := by decide
theorem witness_CallsReturnLastFirst : (start 0).sp.val + (List.replicate 16 (0x204 : Addr12)).length ≤ 16 ∧
    ({ start 0 with sp := 16 } : State).sp.val + ([] : List Addr12).length ≤ 16 := by decide

theorem witness_SkipOnKey : ((State.withRegs (start 0) [(4, 15)]).reg 4).toNat = (15 : Fin 16).val ∧
    15 < ((State.withRegs (start 0) [(4, 16)]).reg 4).toNat := by decide

/-- I anywhere. -/
def pointing (i : Word) : State := { start 0 with i := i }
theorem witness_BinaryCodedDecimalStore :
    (pointing 4093).i.toNat + 2 ≤ 4095 ∧ 4095 < (pointing 4094).i.toNat + 2 := by decide
theorem witness_RegisterDump : (pointing 4080).i.toNat + (15 : Reg).val ≤ 4095 ∧ (pointing 4095).i.toNat + (0 : Reg).val ≤ 4095 ∧
    4095 < (pointing 4081).i.toNat + (15 : Reg).val ∧ 4095 < (pointing 0xFFFF).i.toNat + (0 : Reg).val := by decide
theorem witness_RegisterLoad : (pointing 4080).i.toNat + (15 : Reg).val ≤ 4095 ∧ (15 : Reg) ≤ 15 ∧
    (pointing 4095).i.toNat + (0 : Reg).val ≤ 4095 ∧ (0 : Reg) < 1 ∧ 4095 < (pointing 4096).i.toNat + (0 : Reg).val := by decide
theorem witness_DumpThenLoadRestores : (pointing 4080).i.toNat + (15 : Reg).val ≤ 4095 := by decide
theorem witness_StoredBytesAreFetched :
    (pointing 4094).i.toNat + (1 : Reg).val ≤ 4095 ∧ (1 : Reg).val = (0 : Reg).val + 1 ∧ (1 : Reg) ≤ 1 := by decide
theorem witness_CanonicalMemoryIsUnique : Memory.wf defaultParams [(0, 1), (0x300, 0x12)] ∧
    ∀ a, Memory.read defaultParams [(0, 1), (0x300, 0x12)] a = Memory.read defaultParams [(0, 1), (0x300, 0x12)] a := by
  refine ⟨by decide, fun _ => rfl⟩

theorem witness_KeyWait : (∀ k : Fin 16, (start 0).key[k] = 0) ∧ ((start 0).setKey 15 1).key[(15 : Fin 16)] ≠ 0 ∧
    ((start 0).setKey 0 1).key[(0 : Fin 16)] ≠ 0 := by decide
theorem witness_KeyWait_any :
    ({ (start 0).setKey 9 1 with params := { defaultParams with keywaitPick := .any } } : State).params.keywaitPick = .any ∧
    ({ (start 0).setKey 9 1 with params := { defaultParams with keywaitPick := .any } } : State).key[(9 : Fin 16)] ≠ 0 := by
  decide

theorem witness_DrawXorsTheSprite : ((pointing 0xFFFF).i.toNat + (0 : Fin 16).val - 1 ≤ 4095 ∨ (0 : Fin 16).val = 0) ∧
    (pointing 4081).i.toNat + (15 : Fin 16).val - 1 ≤ 4095 := by decide
theorem witness_DrawOutsideMemory : 0 < (15 : Fin 16).val ∧ 4095 < (pointing 4082).i.toNat + (15 : Fin 16).val - 1 ∧
    0 < (1 : Fin 16).val ∧ 4095 < (pointing 4096).i.toNat + (1 : Fin 16).val - 1 := by decide
theorem witness_DrawingTwiceRestores : (start 0).i.toNat + (5 : Fin 16).val - 1 ≤ 4095 ∧
    ∃ t, exec (.drw 0 1 5) (start 0) = .next t ∧ t.reg 0 = (start 0).reg 0 ∧ t.reg 1 = (start 0).reg 1 ∧
      (start 0).pixel 0 0 = false ∧ t.pixel 0 0 = true := by
  refine ⟨by decide, _, rfl, by decide +kernel, by decide +kernel, by decide +kernel, by decide +kernel⟩

theorem start_inv : StepInv (start 0x6005) := ⟨by decide, rfl, by decide, by decide⟩
theorem witness_EveryStepKeepsTheInvariant :
    StepInv (start 0x6005) ∧ ∃ t, Machine.step (start 0x6005) = .next t := ⟨start_inv, _, rfl⟩
theorem witness_WritersOfEachRegister : ∃ t, exec (.ldByte 0 5) (start 0) = .next t ∧
    Instr.ldByte 0 5 ≠ .cls ∧ (∀ x y n, Instr.ldByte 0 5 ≠ .drw x y n) ∧ (∀ nnn, Instr.ldByte 0 5 ≠ .call nnn) ∧
    Instr.ldByte 0 5 ≠ .ret ∧ (∀ x, Instr.ldByte 0 5 ≠ .ldDtVx x) ∧ (∀ x, Instr.ldByte 0 5 ≠ .ldStVx x) ∧
    (∀ x, Instr.ldByte 0 5 ≠ .ldB x) ∧ (∀ x, Instr.ldByte 0 5 ≠ .ldMemVx x) ∧ (∀ nnn, Instr.ldByte 0 5 ≠ .ldI nnn) ∧
    (∀ x, Instr.ldByte 0 5 ≠ .addI x) ∧ (∀ x, Instr.ldByte 0 5 ≠ .ldF x) ∧ (∀ x, Instr.ldByte 0 5 ≠ .ldVxMem x) := by
  refine ⟨_, rfl, ?_⟩; simp
/-- Its clauses on V, VF, pc and ESR. -/
theorem witness_WritersOfEachRegister_registers : mayWriteReg (.ldByte 0 5) 1 = false ∧ mayWriteReg (.ldVxMem 14) 15 = false ∧
    isSkip (.ldByte 0 5) = false ∧ isTransfer (.ldByte 0 5) = false ∧ (∀ x, Instr.ldByte 0 5 ≠ .ldVxK x) ∧
    (∀ e, mayRaise (.ldByte 0 5) e = false) ∧ (∃ t, exec (.addReg 1 2) (start 0) = .next t) ∧ writesFlag (.addReg 1 2) = true ∧
    (∃ t, exec (.skp 1) (start 0) = .next t) ∧ isSkip (.skp 1) = true ∧ (∃ t, exec (.ldVxK 3) (start 0) = .next t) := by
  refine ⟨by decide, by decide, rfl, rfl, fun _ h => (nomatch h), fun _ => rfl, ⟨_, rfl⟩, rfl, ⟨_, rfl⟩, rfl, _, rfl⟩
theorem witness_AtMostOneReportPerInstruction :
    (∃ t, exec (.ldByte 0 5) (start 0) = .next t ∧ t.out = []) ∧ ∃ t, exec .ret (start 0) = .next t ∧ t.out ≠ [] := by
  refine ⟨⟨_, rfl, rfl⟩, _, rfl, by decide⟩
theorem witness_StatusRecordsEveryReport :
    (∀ image rest, (start 0x0123).env ≠ .host (.reset image) :: rest) ∧
    ∃ t, Machine.step (start 0x0123) = .next t ∧ t.out ≠ [] := by
  refine ⟨fun _ _ h => (nomatch h), _, rfl, by decide⟩
theorem witness_EvenPcIsPreserved : ∃ t, exec (.jp 0x204) (start 0) = .next t ∧ (start 0).pc.toNat % 2 = 0 ∧
    (∀ j : Fin 16, j.val < (start 0).sp.val → (start 0).stack[j].toNat % 2 = 0) ∧
    (∀ nnn, Instr.jp 0x204 = .jp nnn → nnn.toNat % 2 = 0) ∧ (∀ nnn, Instr.jp 0x204 = .call nnn → nnn.toNat % 2 = 0) ∧
    (∀ nnn, Instr.jp 0x204 = .jpV0 nnn → (nnn.toNat + ((start 0).reg 0).toNat) % 2 = 0) := by
  refine ⟨_, rfl, by decide, by decide, ?_, fun _ h => (nomatch h), fun _ h => (nomatch h)⟩
  rintro nnn ⟨⟩; decide
theorem start_settled : (start 0x1200).settledAt 0x200 := ⟨by decide, by decide, by decide⟩
theorem witness_SettledRunStaysSettled :
    (start 0x1200).settledAt 0x200 ∧ (start 0x1200).runs ∧ (start 0x1200).fr = false := ⟨start_settled, start_runs _, rfl⟩
theorem witness_TimersCountTheTicks : ({ start 0x1200 with st := 1 } : State).settledAt 0x200 ∧
    ({ start 0x1200 with st := 1 } : State).dbg = .running ∧ ({ start 0x1200 with st := 1 } : State).fr = false ∧
    ({ start 0x1200 with st := 1 } : State).env = [quiet].map .iterate := ⟨start_settled, rfl, rfl, rfl⟩

end Sys2Proof.Tests
end

section
/-! SUPPORT. What an instruction can do, said once: `Effect` and `exec_effect`. -/

namespace Sys2Proof.Machine

open Sys2Proof.Config

/-! ## Frames -/

/-- A frame, field by field. -/
theorem frame_iff {L : List Field} {s t : State} : Frame L s t ↔
    (.mem ∉ L → ∀ a, t.readByte a = s.readByte a) ∧ (.v ∉ L → t.v = s.v) ∧ (.i ∉ L → t.i = s.i) ∧
    (.pc ∉ L → t.pc = s.pc) ∧ (.stack ∉ L → t.stack = s.stack) ∧ (.sp ∉ L → t.sp = s.sp) ∧ (.fb ∉ L → t.fb = s.fb) ∧
    (.dt ∉ L → t.dt = s.dt) ∧ (.st ∉ L → t.st = s.st) ∧ (.key ∉ L → t.key = s.key) ∧ (.fr ∉ L → t.fr = s.fr) ∧
    (.dbg ∉ L → t.dbg = s.dbg) ∧ (.esr ∉ L → t.esr = s.esr) ∧ (.params ∉ L → t.params = s.params) ∧
    (.env ∉ L → t.env = s.env) ∧ (.inputs ∉ L → t.inputs = s.inputs) ∧ (.drawn ∉ L → t.drawn = s.drawn) ∧
    (.out ∉ L → t.out = s.out) := by
  constructor
  · intro h
    exact ⟨h .mem, h .v, h .i, h .pc, h .stack, h .sp, h .fb, h .dt, h .st, h .key, h .fr, h .dbg, h .esr, h .params,
      h .env, h .inputs, h .drawn, h .out⟩
  · rintro ⟨mem, v, i, pc, stack, sp, fb, dt, st, key, fr, dbg, esr, params, env, inputs, drawn, out⟩ f
    cases f <;> assumption

/-- A longer list of changed fields is a weaker frame. -/
theorem Frame.mono {L M : List Field} {s t : State} (h : Frame L s t) (sub : L ⊆ M) : Frame M s t :=
  fun f hf => h f fun hL => hf (sub hL)

/-! ## The groups of instructions that share one effect -/

/-- The x of the instructions that write Vx and no flag. -/
def assignTarget : Instr → Option Reg
  | .ldByte x _ | .addByte x _ | .ldReg x _ | .orReg x _ | .andReg x _ | .xorReg x _ | .rnd x _ | .ldVxDt x
  | .ldVxK x => some x
  | _ => none

/-- The x of the instructions that write Vx and then the flag (R119). -/
def flagTarget : Instr → Option Reg
  | .addReg x _ | .subReg x _ | .shr x _ | .subn x _ | .shl x _ => some x
  | _ => none

/-- What an instruction can do to a state: be rejected, or what its group does. Values that no rule on the whole machine asks
for (the byte a register receives, the pixels drawn) are left open; pc, STACK, SP, I, ESR and the run of memory
written are exact. -/
inductive Effect (s : State) : Instr → State → Prop
  | rejected {i : Instr} {e : ErrorCond} (h : mayRaise i e = true) : Effect s i (s.reject e)
  | assigned {i : Instr} {x : Reg} (b : Byte) (h : assignTarget i = some x) : Effect s i (s.assign x b)
  | flagged {i : Instr} {x : Reg} (b : Byte) (f : Bool) (h : flagTarget i = some x) : Effect s i (s.assignFlag x b f)
  | skipped {i : Instr} (c : Bool) (h : isSkip i = true) : Effect s i (s.skipIf c)
  | waiting (x : Reg) : Effect s (.ldVxK x) s
  | jumped (nnn : Addr12) : Effect s (.jp nnn) (s.setPc (addrOf nnn))
  | jumpedV0 (nnn : Addr12) : Effect s (.jpV0 nnn) (s.setPc (addrOf nnn + (s.reg 0).setWidth 16))
  | called (nnn : Addr12) (h : s.sp.val < 16) : Effect s (.call nnn)
      { s with stack := s.stack.set s.sp.val s.pc, sp := ⟨s.sp.val + 1, by omega⟩, pc := addrOf nnn }
  | returned (h : 0 < s.sp.val) : Effect s .ret
      { s with sp := ⟨s.sp.val - 1, by omega⟩, pc := s.stack[s.sp.val - 1] + 2 }
  | cleared : Effect s .cls (({ s with fb := blankScreen, fr := true }.setFlag true).advance 2)
  | drawn (x y : Reg) (n : Fin 16) (c : Canvas) :
      Effect s (.drw x y n) (({ s with fb := c.fb, fr := true }.setFlag c.hit).advance 2)
  | loadedI (nnn : Addr12) : Effect s (.ldI nnn) ((s.setI (addrOf nnn)).advance 2)
  | loadedFont (x : Reg) : Effect s (.ldF x) ((s.setI ((s.reg x).setWidth 16 * 5)).advance 2)
  | addedI (x : Reg) : Effect s (.addI x) ((s.setI (s.i + (s.reg x).setWidth 16)).advance 2)
  | addedIFlag (x : Reg) (f : Bool) :
      Effect s (.addI x) (((s.setI (s.i + (s.reg x).setWidth 16)).setFlag f).advance 2)
  | storedDigits (x : Reg) (h : s.i.toNat + 3 ≤ memSize) :
      Effect s (.ldB x) ((s.storeBytes s.i.toNat (bcdDigits (s.reg x))).advance 2)
  | storedBlock (x : Reg) (h : s.i.toNat + blockSize x ≤ memSize) :
      Effect s (.ldMemVx x) (((s.storeBytes s.i.toNat (s.blockRegs x)).bumpI x).advance 2)
  | loadedBlock (x : Reg) : Effect s (.ldVxMem x) (((s.loadBlock s.i.toNat x).bumpI x).advance 2)
  | setDt (x : Reg) : Effect s (.ldDtVx x) ({ s with dt := s.reg x }.advance 2)
  | setSt (x : Reg) : Effect s (.ldStVx x) ({ s with st := s.reg x }.advance 2)

/-! ## Every instruction answers a next state, by one of these effects -/

/-- The flag write of `Fx1E` leaves VF or writes it. -/
theorem State.indexFlag_cases (s : State) (o : Bool) : s.indexFlag o = s ∨ ∃ f, s.indexFlag o = s.setFlag f := by
  unfold State.indexFlag
  split
  · exact .inl rfl
  · split
    · exact .inr ⟨true, rfl⟩
    · exact .inl rfl
  · exact .inr ⟨o, rfl⟩

theorem execAddI_effect (x : Reg) (s : State) : ∃ t, execAddI x s = .next t ∧ Effect s (.addI x) t := by
  unfold execAddI
  obtain h | ⟨f, h⟩ := (s.setI (s.i + (s.reg x).setWidth 16)).indexFlag_cases (indexOverflow s.i (s.reg x))
  · rw [h]; exact ⟨_, rfl, .addedI x⟩
  · rw [h]; exact ⟨_, rfl, .addedIFlag x f⟩

theorem execCall_effect (nnn : Addr12) (s : State) : ∃ t, execCall nnn s = .next t ∧ Effect s (.call nnn) t := by
  unfold execCall
  split
  · exact ⟨_, rfl, .called nnn ‹_›⟩
  · exact ⟨_, rfl, .rejected rfl⟩

theorem execRet_effect (s : State) : ∃ t, execRet s = .next t ∧ Effect s .ret t := by
  unfold execRet
  split
  · exact ⟨_, rfl, .returned ‹_›⟩
  · exact ⟨_, rfl, .rejected rfl⟩

theorem execDrw_effect (x y : Reg) (n : Fin 16) (s : State) :
    ∃ t, execDrw x y n s = .next t ∧ Effect s (.drw x y n) t := by
  unfold execDrw
  split
  · exact ⟨_, rfl, .rejected rfl⟩
  · exact ⟨_, rfl, .drawn x y n _⟩

/-- The two skips on a key differ in the key state they wait for alone. -/
theorem State.keySkip_effect (s : State) (x : Reg) (whenPressed : Bool) {i : Instr} (hi : i = .skp x ∨ i = .sknp x) :
    Effect s i (s.keySkip x whenPressed) := by
  unfold State.keySkip
  split
  · exact .skipped _ (by rcases hi with rfl | rfl <;> rfl)
  · exact .rejected (by rcases hi with rfl | rfl <;> rfl)

theorem execLdVxK_effect (x : Reg) (s : State) : ∃ t, execLdVxK x s = .next t ∧ Effect s (.ldVxK x) t := by
  unfold execLdVxK
  split
  · exact ⟨_, rfl, .waiting x⟩
  · exact ⟨_, rfl, .assigned _ rfl⟩

/-- A checked run of at least one byte that raises nothing lies inside memory. -/
theorem run_le_memSize {a n : Nat} (hn : 0 < n) (h : rangeError a n = none) : a + n ≤ memSize := by
  rcases rangeError_eq_none.1 h with h0 | h1
  · omega
  · exact h1

theorem execLdB_effect (x : Reg) (s : State) : ∃ t, execLdB x s = .next t ∧ Effect s (.ldB x) t := by
  unfold execLdB
  split
  · exact ⟨_, rfl, .rejected rfl⟩
  · exact ⟨_, rfl, .storedDigits x (run_le_memSize (by decide) ‹_›)⟩

theorem execLdMemVx_effect (x : Reg) (s : State) : ∃ t, execLdMemVx x s = .next t ∧ Effect s (.ldMemVx x) t := by
  unfold execLdMemVx
  split
  · exact ⟨_, rfl, .rejected rfl⟩
  · exact ⟨_, rfl, .storedBlock x (run_le_memSize (Nat.succ_pos _) ‹_›)⟩

theorem execLdVxMem_effect (x : Reg) (s : State) : ∃ t, execLdVxMem x s = .next t ∧ Effect s (.ldVxMem x) t := by
  unfold execLdVxMem
  split
  · exact ⟨_, rfl, .rejected rfl⟩
  · exact ⟨_, rfl, .loadedBlock x⟩

/-- Every instruction answers a next state, and by one of the effects. -/
theorem exec_effect (i : Instr) (s : State) : ∃ t, exec i s = .next t ∧ Effect s i t := by
  cases i with
  | cls => exact ⟨_, rfl, .cleared⟩
  | ret => exact execRet_effect s
  | sys nnn => exact ⟨_, rfl, .rejected rfl⟩
  | jp nnn => exact ⟨_, rfl, .jumped nnn⟩
  | call nnn => exact execCall_effect nnn s
  | seByte x nn => exact ⟨_, rfl, .skipped _ rfl⟩
  | sneByte x nn => exact ⟨_, rfl, .skipped _ rfl⟩
  | seReg x y => exact ⟨_, rfl, .skipped _ rfl⟩
  | ldByte x nn => exact ⟨_, rfl, .assigned _ rfl⟩
  | addByte x nn => exact ⟨_, rfl, .assigned _ rfl⟩
  | ldReg x y => exact ⟨_, rfl, .assigned _ rfl⟩
  | orReg x y => exact ⟨_, rfl, .assigned _ rfl⟩
  | andReg x y => exact ⟨_, rfl, .assigned _ rfl⟩
  | xorReg x y => exact ⟨_, rfl, .assigned _ rfl⟩
  | addReg x y => exact ⟨_, rfl, .flagged _ _ rfl⟩
  | subReg x y => exact ⟨_, rfl, .flagged _ _ rfl⟩
  | shr x y => exact ⟨_, rfl, .flagged _ _ rfl⟩
  | subn x y => exact ⟨_, rfl, .flagged _ _ rfl⟩
  | shl x y => exact ⟨_, rfl, .flagged _ _ rfl⟩
  | sneReg x y => exact ⟨_, rfl, .skipped _ rfl⟩
  | ldI nnn => exact ⟨_, rfl, .loadedI nnn⟩
  | jpV0 nnn => exact ⟨_, rfl, .jumpedV0 nnn⟩
  | rnd x nn => exact ⟨_, rfl, .assigned _ rfl⟩
  | drw x y n => exact execDrw_effect x y n s
  | skp x => exact ⟨_, rfl, s.keySkip_effect x true (.inl rfl)⟩
  | sknp x => exact ⟨_, rfl, s.keySkip_effect x false (.inr rfl)⟩
  | ldVxDt x => exact ⟨_, rfl, .assigned _ rfl⟩
  | ldVxK x => exact execLdVxK_effect x s
  | ldDtVx x => exact ⟨_, rfl, .setDt x⟩
  | ldStVx x => exact ⟨_, rfl, .setSt x⟩
  | addI x => exact execAddI_effect x s
  | ldF x => exact ⟨_, rfl, .loadedFont x⟩
  | ldB x => exact execLdB_effect x s
  | ldMemVx x => exact execLdMemVx_effect x s
  | ldVxMem x => exact execLdVxMem_effect x s

theorem effect_of_exec {i : Instr} {s t : State} (h : exec i s = .next t) : Effect s i t := by
  obtain ⟨u, hu, he⟩ := exec_effect i s
  obtain rfl : u = t := by simpa [h] using hu.symm
  exact he

end Sys2Proof.Machine
end

section
/-! SUPPORT. What follows from `Effect` about every instruction: its frame, its report, its registers, its flag and its pc. -/

namespace Sys2Proof.Machine

open Sys2Proof.Config

/-! ## What every instruction keeps -/

/-- The fields an instruction may write, carried out or rejected (the table of R10). -/
def fieldsWritten : Instr → List Field
  | .cls => [.fb, .v, .fr, .pc]
  | .ret => [.sp, .pc, .esr, .out]
  | .sys _ | .skp _ | .sknp _ => [.pc, .esr, .out]
  | .jp _ | .jpV0 _ | .seByte _ _ | .sneByte _ _ | .seReg _ _ | .sneReg _ _ => [.pc]
  | .call _ => [.stack, .sp, .pc, .esr, .out]
  | .ldByte _ _ | .addByte _ _ | .ldReg _ _ | .orReg _ _ | .andReg _ _ | .xorReg _ _ | .rnd _ _ | .ldVxDt _ | .ldVxK _
  | .addReg _ _ | .subReg _ _ | .shr _ _ | .subn _ _ | .shl _ _ => [.v, .pc]
  | .drw _ _ _ => [.fb, .v, .fr, .pc, .esr, .out]
  | .ldI _ | .ldF _ => [.i, .pc]
  | .addI _ => [.i, .v, .pc]
  | .ldDtVx _ => [.dt, .pc]
  | .ldStVx _ => [.st, .pc]
  | .ldB _ => [.mem, .pc, .esr, .out]
  | .ldMemVx _ => [.mem, .i, .pc, .esr, .out]
  | .ldVxMem _ => [.v, .i, .pc, .esr, .out]

section
variable {i : Instr} {s t : State} {e : ErrorCond} {x : Reg}

theorem report_fields_written (h : mayRaise i e = true) : [.esr, .out, .pc] ⊆ fieldsWritten i := by
  cases i <;> simp_all [mayRaise, fieldsWritten]

theorem assign_fields_written (h : assignTarget i = some x) : [.v, .pc] ⊆ fieldsWritten i := by
  cases i <;> simp_all [assignTarget, fieldsWritten]

theorem flag_fields_written (h : flagTarget i = some x) : [.v, .pc] ⊆ fieldsWritten i := by
  cases i <;> simp_all [flagTarget, fieldsWritten]

theorem skip_fields_written (h : isSkip i = true) : [.pc] ⊆ fieldsWritten i := by
  cases i <;> simp_all [isSkip, fieldsWritten]

/-- No instruction changes a field outside its list. -/
theorem Effect.frame (h : Effect s i t) : Frame (fieldsWritten i) s t := by
  cases h with
  | rejected h => exact (rejected_reject s _).2.2.mono (report_fields_written h)
  | assigned b h => exact (assigned_assign s _ b).2.2.2.mono (assign_fields_written h)
  | flagged b f h => exact (flagAssigned_assignFlag s _ b f).2.2.2.2.mono (flag_fields_written h)
  | skipped c h => exact (skipped_skipIf s c).2.2.mono (skip_fields_written h)
  | _ => simp [frame_iff, fieldsWritten, State.readByte]

end

section
variable {i : Instr} {s t : State} {x r : Reg}

/-- An instruction reports nothing, or one condition of its own kind (R210). -/
theorem Effect.report (h : Effect s i t) :
    (t.out = s.out ∧ t.esr = s.esr) ∨ ∃ e, mayRaise i e = true ∧ Raised e s t := by
  cases h with
  | rejected h => exact .inr ⟨_, h, rfl, rfl⟩
  | _ => exact .inl (by simp)

/-! ## Who may write a field -/

/-- No instruction writes KEY, DBG, the parameters or the environment. -/
theorem never_written {f : Field} (h : f ∈ [.key, .dbg, .params, .env, .inputs, .drawn]) : f ∉ fieldsWritten i := by
  simp only [List.mem_cons, List.not_mem_nil, or_false] at h
  rcases h with rfl | rfl | rfl | rfl | rfl | rfl <;> cases i <;> simp [fieldsWritten]

theorem writer_of_fb (h : .fb ∈ fieldsWritten i) : i = .cls ∨ ∃ x y n, i = .drw x y n := by
  cases i <;> simp [fieldsWritten] at h ⊢

theorem writer_of_fr (h : .fr ∈ fieldsWritten i) : i = .cls ∨ ∃ x y n, i = .drw x y n := by
  cases i <;> simp [fieldsWritten] at h ⊢

theorem writer_of_stack (h : .stack ∈ fieldsWritten i) : ∃ nnn, i = .call nnn := by
  cases i <;> simp [fieldsWritten] at h ⊢

theorem writer_of_sp (h : .sp ∈ fieldsWritten i) : (∃ nnn, i = .call nnn) ∨ i = .ret := by
  cases i <;> simp [fieldsWritten] at h ⊢

theorem writer_of_dt (h : .dt ∈ fieldsWritten i) : ∃ x, i = .ldDtVx x := by
  cases i <;> simp [fieldsWritten] at h ⊢

theorem writer_of_st (h : .st ∈ fieldsWritten i) : ∃ x, i = .ldStVx x := by
  cases i <;> simp [fieldsWritten] at h ⊢

theorem writer_of_mem (h : .mem ∈ fieldsWritten i) : (∃ x, i = .ldB x) ∨ ∃ x, i = .ldMemVx x := by
  cases i <;> simp [fieldsWritten] at h ⊢

theorem writer_of_i (h : .i ∈ fieldsWritten i) :
    (∃ nnn, i = .ldI nnn) ∨ (∃ x, i = .addI x) ∨ (∃ x, i = .ldF x) ∨ (∃ x, i = .ldMemVx x) ∨ ∃ x, i = .ldVxMem x := by
  cases i <;> simp [fieldsWritten] at h ⊢

/-! ## Registers and flags -/

theorem mayWriteReg_of_assignTarget (h : assignTarget i = some x) : mayWriteReg i x = true := by
  cases i <;> cases h <;> simp [mayWriteReg]

theorem mayWriteReg_of_flagTarget (h : flagTarget i = some x) : mayWriteReg i x = true ∧ mayWriteReg i VF = true := by
  cases i <;> cases h <;> simp [mayWriteReg]

theorem ne_of_mayWriteReg (hx : mayWriteReg i x = true) (hr : mayWriteReg i r = false) : x ≠ r := by
  rintro rfl
  simp [hx] at hr

/-- A register outside the table of R10 keeps its value. -/
theorem Effect.reg_kept (h : Effect s i t) (hr : mayWriteReg i r = false) : t.reg r = s.reg r := by
  cases h with
  | assigned b h => simp [ne_of_mayWriteReg (mayWriteReg_of_assignTarget h) hr]
  | flagged b f h =>
    obtain ⟨hx, hf⟩ := mayWriteReg_of_flagTarget h
    simp [ne_of_mayWriteReg hx hr, ne_of_mayWriteReg hf hr]
  | cleared | drawn | addedIFlag =>
    have hne : VF ≠ r := ne_of_mayWriteReg (by simp [mayWriteReg]) hr
    simp only [State.reg_advance, State.setFlag_eq, State.reg_setReg, if_neg hne]
    rfl
  | loadedBlock x =>
    have hlt : ¬r ≤ x := by simpa [mayWriteReg] using hr
    simp [hlt]
  | _ => rfl

theorem flagByte_eq_zero_or_one (f : Bool) : flagByte f = 0 ∨ flagByte f = 1 := by
  cases f
  · exact .inl rfl
  · exact .inr rfl

theorem not_writesFlag_of_assignTarget (h : assignTarget i = some x) : writesFlag i = false := by
  cases i <;> cases h <;> rfl

/-- A flag writer leaves VF, or a 0 or a 1 in it (R12). -/
theorem Effect.flag (h : Effect s i t) (hw : writesFlag i = true) :
    t.reg VF = s.reg VF ∨ t.reg VF = 0 ∨ t.reg VF = 1 := by
  cases h with
  | assigned b h => simp [not_writesFlag_of_assignTarget h] at hw
  | flagged b f h => exact .inr (by simpa using flagByte_eq_zero_or_one f)
  | cleared => exact .inr (by simp)
  | drawn x y n c => exact .inr (by simpa using flagByte_eq_zero_or_one c.hit)
  | addedIFlag x f => exact .inr (by simpa using flagByte_eq_zero_or_one f)
  | loadedBlock => cases hw
  | _ => exact .inl rfl

/-! ## The program counter -/

theorem of_isSkip (h : isSkip i = true) : isTransfer i = false ∧ ∀ x, i ≠ .ldVxK x := by
  cases i <;> cases h <;> exact ⟨rfl, fun _ h => nomatch h⟩

/-- But for the transfers pc goes on by 2; a skip may go on by 4, and the key wait may stay. -/
theorem Effect.pc_advances (h : Effect s i t) (ht : isTransfer i = false) :
    t.pc = s.pc + 2 ∨ (isSkip i = true ∧ t.pc = s.pc + 4) ∨ ((∃ x, i = .ldVxK x) ∧ t.pc = s.pc) := by
  cases h with
  | skipped c h =>
    cases c
    · exact .inl (by simp)
    · exact .inr (.inl ⟨h, by simp⟩)
  | waiting x => exact .inr (.inr ⟨⟨x, rfl⟩, rfl⟩)
  | jumped | jumpedV0 | called | returned => cases ht
  | _ => exact .inl (by simp)

end

end Sys2Proof.Machine
end

section
/-! PROOF. O48: the writers of each piece of state. -/

namespace Sys2Proof.Machine

open Sys2Proof.Config

/-- Settles O48: the frame of an instruction's fields, its registers, its flag, its report and its pc, put together. -/
theorem writersOfEachRegister : Obligations.WritersOfEachRegister := by
  unfold Obligations.WritersOfEachRegister
  intro i s t h
  have he := effect_of_exec h
  have hf := he.frame
  refine ⟨fun r => he.reg_kept, he.flag, ?pcOn, ?pcSkip, ?pcWait, ?quiet, ?never, ?screen, ?stack, ?sp, ?dt, ?st, ?mem, ?i⟩
  case pcOn =>
    intro hs ht hk
    rcases he.pc_advances ht with h | ⟨h, -⟩ | ⟨⟨x, rfl⟩, -⟩
    · exact h
    · simp [hs] at h
    · exact absurd rfl (hk x)
  case pcSkip =>
    intro hs
    obtain ⟨ht, hk⟩ := of_isSkip hs
    rcases he.pc_advances ht with h | ⟨-, h⟩ | ⟨⟨x, rfl⟩, -⟩
    · exact .inl h
    · exact .inr h
    · exact absurd rfl (hk x)
  case pcWait =>
    rintro ⟨x, rfl⟩
    rcases he.pc_advances rfl with h | ⟨h, -⟩ | ⟨-, h⟩
    · exact .inr h
    · cases h
    · exact .inl h
  case quiet =>
    intro hq
    rcases he.report with ⟨ho, hesr⟩ | ⟨e, hr, -⟩
    · exact ⟨hesr, ho⟩
    · simp [hq e] at hr
  case never =>
    exact ⟨hf .key (never_written (by decide)), hf .dbg (never_written (by decide)),
      hf .params (never_written (by decide)), hf .env (never_written (by decide)),
      hf .inputs (never_written (by decide)), hf .drawn (never_written (by decide))⟩
  case screen =>
    intro hc hd
    have other : ¬(i = .cls ∨ ∃ x y n, i = .drw x y n) := by simp [hc, hd]
    exact ⟨hf .fb (other ∘ writer_of_fb), hf .fr (other ∘ writer_of_fr)⟩
  case stack => exact fun hc => hf .stack fun w => by simpa [hc] using writer_of_stack w
  case sp => exact fun hc hr => hf .sp fun w => by simpa [hc, hr] using writer_of_sp w
  case dt => exact fun hd => hf .dt fun w => by simpa [hd] using writer_of_dt w
  case st => exact fun hs => hf .st fun w => by simpa [hs] using writer_of_st w
  case mem => exact fun hb hm => hf .mem fun w => by simpa [hb, hm] using writer_of_mem w
  case i => exact fun hl ha hfont hm hv => hf .i fun w => by simpa [hl, ha, hfont, hm, hv] using writer_of_i w

end Sys2Proof.Machine
end

section
/-! SUPPORT. What a cycle, a step and a host event can do, and the bits of ESR. -/

namespace Sys2Proof.Machine

open Sys2Proof.Config

/-! ## What a cycle and a step can do -/

/-- What one cycle can do (R225): report a fetch outside memory, report an unknown opcode, or carry out an instruction. -/
inductive CycleEffect (s : State) : State → Prop
  | badFetch (bad : Nat) : CycleEffect s (s.raise (.addrRange bad .fetch))
  | unknown (op : Word) : CycleEffect s (s.reject (.unknownOpcode op))
  | executed {i : Instr} {t : State} (h : Effect s i t) : CycleEffect s t

theorem cycle_effect (s : State) : ∃ t, cycle s = .next t ∧ CycleEffect s t := by
  unfold cycle
  split
  · exact ⟨_, rfl, .badFetch _⟩
  · split
    · obtain ⟨t, ht, he⟩ := exec_effect _ s
      exact ⟨t, ht, .executed he⟩
    · exact ⟨_, rfl, .unknown _⟩

/-- What one step can do (R225, R226, R236): a host event, an iteration that finds Paused, or a cycle and what follows it. -/
inductive StepEffect (s : State) : State → Prop
  | host {e : HostEvent} {rest : List EnvEvent} (h : s.env = .host e :: rest) :
      StepEffect s (State.hostEvent { s with env := rest } e)
  | idle (hh : ∀ e rest, s.env ≠ .host e :: rest) (hd : s.dbg = .paused) : StepEffect s s.loaded
  | ran {u : State} (hr : s.runs) (h : CycleEffect s.loaded u) : StepEffect s u.afterCycle

theorem step_effect (s : State) : ∃ t, step s = .next t ∧ StepEffect s t := by
  by_cases hh : ∃ e rest, s.env = .host e :: rest
  · obtain ⟨e, rest, he⟩ := hh
    exact ⟨_, step_eq_host he, .host he⟩
  · have hh : ∀ e rest, s.env ≠ .host e :: rest := fun e rest he => hh ⟨e, rest, he⟩
    by_cases hd : s.dbg = .paused
    · refine ⟨s.loaded, ?_, .idle hh hd⟩
      rw [step_eq_iteration hh, iteration, State.loaded_dbg, if_pos hd]
    · obtain ⟨u, hu, he⟩ := cycle_effect s.loaded
      refine ⟨u.afterCycle, ?_, .ran ⟨hh, hd⟩ he⟩
      rw [step_eq_cycle ⟨hh, hd⟩, hu]
      rfl

theorem effect_of_step {s t : State} (h : step s = .next t) : StepEffect s t := by
  obtain ⟨u, hu, he⟩ := step_effect s
  obtain rfl : u = t := by simpa [h] using hu.symm
  exact he

theorem State.loaded_mem (s : State) : s.loaded.mem = s.mem := by unfold State.loaded; split <;> rfl

/-- But for a reset a host event writes KEY or DBG alone. -/
theorem State.hostEvent_frame (s : State) {e : HostEvent} (he : ∀ image, e ≠ .reset image) :
    Frame [.key, .dbg] s (s.hostEvent e) := by
  have setKey_frame : ∀ k value, Frame [.key, .dbg] s (s.setKey k value) := by
    intro k value
    unfold State.setKey
    split <;> simp [frame_iff, State.readByte]
  cases e with
  | reset image => exact absurd rfl (he image)
  | keySet k => exact setKey_frame k _
  | keyClear k => exact setKey_frame k _
  | pause | cont | step => simp [frame_iff, State.hostEvent, State.readByte]

/-! ## ESR -/

theorem ErrorCond.code_pos (e : ErrorCond) : 0 < e.code := by cases e <;> simp [ErrorCond.code]
theorem ErrorCond.code_lt (e : ErrorCond) : e.code < 8 := by cases e <;> simp [ErrorCond.code]

/-- A raised condition sets the bit of its code and no other (R200). -/
theorem Raised.esr_bit {e : ErrorCond} {s t : State} (h : Raised e s t) (k : Nat) :
    t.esr.getLsbD k = true ↔ s.esr.getLsbD k = true ∨ e.code = k := by
  have := e.code_lt
  rw [h.2, BitVec.getLsbD_or, BitVec.getLsbD_twoPow]
  simp [this]

end Sys2Proof.Machine
end

section
/-! PROOF. O46 and O47: the invariant, at reset and over a step. -/

namespace Sys2Proof.Machine

open Sys2Proof.Config

/-- The part of the invariant that holds in the middle of an iteration too: all of it but FR, which CLS and DRW set and the
frame check clears. -/
structure MidInv (s : State) : Prop where
  memCanonical : Memory.wf s.params s.mem
  esrBit0 : s.esr.getLsbD 0 = false
  keysLegal : ∀ k : Fin 16, s.key[k] = 0 ∨ s.key[k] = s.params.keyPressedMarker.val

section
variable {s t : State} {i : Instr} {e : ErrorCond}

theorem stepInv_iff : StepInv s ↔ MidInv s ∧ s.fr = false :=
  ⟨fun h => ⟨⟨h.memCanonical, h.esrBit0, h.keysLegal⟩, h.frClear⟩,
    fun ⟨h, hf⟩ => ⟨h.memCanonical, hf, h.esrBit0, h.keysLegal⟩⟩

theorem MidInv.of_kept (h : MidInv s) (params : t.params = s.params) (mem : t.mem = s.mem) (esr : t.esr = s.esr)
    (key : t.key = s.key) : MidInv t :=
  ⟨by rw [params, mem]; exact h.memCanonical, by rw [esr]; exact h.esrBit0, by rw [params, key]; exact h.keysLegal⟩

/-- No condition has code 0. -/
theorem Raised.esr_bit0 (hr : Raised e s t) (h : s.esr.getLsbD 0 = false) : t.esr.getLsbD 0 = false := by
  rw [Bool.eq_false_iff, Ne, hr.esr_bit, h]
  simpa using e.code_pos.ne'

theorem MidInv.raise (h : MidInv s) (e : ErrorCond) : MidInv (s.raise e) :=
  ⟨h.memCanonical, (raised_raise s e).esr_bit0 h.esrBit0, h.keysLegal⟩

/-- The two stores write runs inside memory; every other instruction keeps MEM. -/
theorem Effect.mem_wf (h : Effect s i t) (hm : Memory.wf s.params s.mem) : Memory.wf t.params t.mem := by
  cases h with
  | storedDigits x h => exact Memory.wf_writeBytes _ _ _ hm h
  | storedBlock x h => exact Memory.wf_writeBytes _ _ _ hm (by rw [State.length_blockRegs]; exact h)
  | _ => simpa using hm

theorem Effect.midInv (h : Effect s i t) (hi : MidInv s) : MidInv t := by
  have params : t.params = s.params := h.frame .params (never_written (by decide))
  have key : t.key = s.key := h.frame .key (never_written (by decide))
  refine ⟨h.mem_wf hi.memCanonical, ?_, by rw [params, key]; exact hi.keysLegal⟩
  rcases h.report with ⟨-, esr⟩ | ⟨e, -, hr⟩
  · rw [esr]; exact hi.esrBit0
  · exact hr.esr_bit0 hi.esrBit0

theorem CycleEffect.midInv (h : CycleEffect s t) (hi : MidInv s) : MidInv t := by
  cases h with
  | badFetch bad => exact hi.raise _
  | unknown op => exact (hi.raise _).of_kept rfl rfl rfl rfl
  | executed h => exact h.midInv hi

theorem State.loaded_midInv (hi : MidInv s) : MidInv s.loaded :=
  hi.of_kept s.loaded_params s.loaded_mem (s.loaded_frame .esr (by decide)) (s.loaded_frame .key (by decide))

end

/-- Reset meets the invariant, whatever the parameters are. -/
theorem stepInv_resetWith (p : Params) : StepInv (State.resetWith p) :=
  ⟨Memory.wf_nil p, rfl, by simp [State.resetWith], fun k => .inl (by simp [State.resetWith])⟩

/-- Settles O46. -/
theorem resetMeetsTheInvariant : Obligations.ResetMeetsTheInvariant := stepInv_resetWith _

/-- A reset meets the invariant whatever came before it: the image is checked to fit before it is written. -/
theorem State.stepInv_hostReset (s : State) (image : Option (List Byte)) : StepInv (s.hostReset image) := by
  have fresh : MidInv s.fresh := (stepInv_iff.1 (stepInv_resetWith s.params)).1.of_kept rfl rfl rfl rfl
  have failed : ∀ e, StepInv (s.fresh.raise e) := fun e => stepInv_iff.2 ⟨fresh.raise e, rfl⟩
  unfold State.hostReset
  split
  · exact failed _
  · split
    · refine stepInv_iff.2 ⟨⟨?_, fresh.esrBit0, fresh.keysLegal⟩, rfl⟩
      exact Memory.wf_writeBytes _ _ _ (Memory.wf_nil _) (by simp only [progBase, memSize, maxImage] at *; omega)
    · exact failed _

/-- KEY stays legal when the value written is. -/
theorem StepInv.setKey {s : State} (h : StepInv s) (k : Nat) {value : Nat}
    (hv : value = 0 ∨ value = s.params.keyPressedMarker.val) : StepInv (s.setKey k value) := by
  unfold State.setKey
  split
  · refine ⟨h.memCanonical, h.frClear, h.esrBit0, fun j => ?_⟩
    simp only [Fin.getElem_fin, Vector.getElem_set]
    split
    · exact hv
    · exact h.keysLegal j
  · exact h

theorem StepInv.hostEvent {s : State} (h : StepInv s) (e : HostEvent) : StepInv (s.hostEvent e) := by
  cases e with
  | reset image => exact s.stepInv_hostReset image
  | keySet k => exact h.setKey k (.inr rfl)
  | keyClear k => exact h.setKey k (.inl rfl)
  | pause | cont | step => exact ⟨h.memCanonical, h.frClear, h.esrBit0, h.keysLegal⟩

/-- Settles O47: a step is a host event, an idle iteration, or a cycle after which the frame check has cleared FR. -/
theorem everyStepKeepsTheInvariant : Obligations.EveryStepKeepsTheInvariant := by
  unfold Obligations.EveryStepKeepsTheInvariant
  intro s t hi h
  have mid := State.loaded_midInv (stepInv_iff.1 hi).1
  cases effect_of_step h with
  | @host e rest he =>
    have before : StepInv { s with env := rest } := ⟨hi.memCanonical, hi.frClear, hi.esrBit0, hi.keysLegal⟩
    exact before.hostEvent e
  | idle => exact stepInv_iff.2 ⟨mid, (s.loaded_frame .fr (by decide)).trans hi.frClear⟩
  | ran _ hc => exact stepInv_iff.2 ⟨(hc.midInv mid).of_kept rfl rfl rfl rfl, rfl⟩

end Sys2Proof.Machine
end

section
/-! PROOF. O50: ESR records what is reported. -/

namespace Sys2Proof.Machine

open Sys2Proof.Config

/-- From `s` to `t` notifications are appended, at most one of them a report, and ESR gains exactly the bits of the codes
reported. -/
def ReportsRecorded (s t : State) : Prop :=
  ∃ new, t.out = s.out ++ new ∧ (new.filter isReport).length ≤ 1 ∧
    ∀ k, t.esr.getLsbD k = true ↔ s.esr.getLsbD k = true ∨ ∃ e pc, OutEvent.report e pc ∈ new ∧ e.code = k

section
variable {s t u : State}

theorem ReportsRecorded.of_quiet (out : t.out = s.out) (esr : t.esr = s.esr) : ReportsRecorded s t :=
  ⟨[], by simp [out], by simp, by simp [esr]⟩

theorem ReportsRecorded.of_raised {e : ErrorCond} (h : Raised e s t) : ReportsRecorded s t :=
  ⟨[.report e s.pc], h.1, List.length_filter_le _ _, fun k => by simp [h.esr_bit k]⟩

/-- Where a record starts depends on the notifications and ESR alone. -/
theorem ReportsRecorded.congr_left (h : ReportsRecorded u t) (out : u.out = s.out) (esr : u.esr = s.esr) :
    ReportsRecorded s t := by
  unfold ReportsRecorded at h ⊢
  rwa [out, esr] at h

/-- What follows a cycle is appended and is no report (R221 to R223). -/
theorem State.afterCycle_emits (s : State) :
    ∃ tail, s.afterCycle.out = s.out ++ tail ∧ ∀ o ∈ tail, isReport o = false := by
  refine ⟨_, s.afterCycle_out, fun o ho => ?_⟩
  have : o = .frameReady s.fb ∨ o = .beep ∨ o = .periodicTick := by grind
  rcases this with rfl | rfl | rfl <;> rfl

theorem ReportsRecorded.afterCycle (h : ReportsRecorded s t) : ReportsRecorded s t.afterCycle := by
  obtain ⟨new, out, once, bits⟩ := h
  obtain ⟨tail, emitted, quiet⟩ := t.afterCycle_emits
  refine ⟨new ++ tail, by simp [emitted, out], ?_, fun k => ?_⟩
  · have : tail.filter isReport = [] := by simpa using quiet
    simpa [this] using once
  · have : ∀ e pc, OutEvent.report e pc ∉ tail := fun e pc he => by simpa [isReport] using quiet _ he
    simp [bits k, this]

theorem CycleEffect.reportsRecorded (h : CycleEffect s t) : ReportsRecorded s t := by
  cases h with
  | badFetch bad => exact .of_raised (raised_raise s _)
  | unknown op => exact .of_raised (rejected_reject s _).1
  | executed h =>
    rcases h.report with ⟨out, esr⟩ | ⟨e, -, hr⟩
    · exact .of_quiet out esr
    · exact .of_raised hr

end

/-- Settles O50: only a cycle reports, and what follows it adds no report. -/
theorem statusRecordsEveryReport : Obligations.StatusRecordsEveryReport := by
  unfold Obligations.StatusRecordsEveryReport
  intro s t hreset h
  have out : s.loaded.out = s.out := s.loaded_frame .out (by decide)
  have esr : s.loaded.esr = s.esr := s.loaded_frame .esr (by decide)
  cases effect_of_step h with
  | @host e rest he =>
    have kept := State.hostEvent_frame { s with env := rest } (e := e) fun image hr => hreset image rest (hr ▸ he)
    exact ReportsRecorded.of_quiet (kept .out (by decide)) (kept .esr (by decide))
  | idle => exact ReportsRecorded.of_quiet out esr
  | ran _ hc => exact (hc.reportsRecorded.congr_left out esr).afterCycle

end Sys2Proof.Machine
end

section
/-! PROOF. O51: even alignment. -/

namespace Sys2Proof.Machine

open Sys2Proof.Config

/-- The sum of two even words is even: 2^16 is. -/
theorem toNat_add_even {v w : Word} (hv : v.toNat % 2 = 0) (hw : w.toNat % 2 = 0) : (v + w).toNat % 2 = 0 := by
  rw [BitVec.toNat_add]; omega

theorem addrOf_toNat (nnn : Addr12) : (addrOf nnn).toNat = nnn.toNat := by
  rw [addrOf, BitVec.toNat_setWidth, Nat.mod_eq_of_lt (by have := nnn.isLt; omega)]

/-- pc and every live entry of the stack are even. -/
def EvenCode (s : State) : Prop := s.pc.toNat % 2 = 0 ∧ ∀ j : Fin 16, j.val < s.sp.val → s.stack[j].toNat % 2 = 0

/-- An even advance with the stack kept. -/
theorem EvenCode.advance {s t : State} (h : EvenCode s) {d : Word} (hd : d.toNat % 2 = 0) (pc : t.pc = s.pc + d)
    (stack : t.stack = s.stack) (sp : t.sp = s.sp) : EvenCode t := by
  refine ⟨pc ▸ toNat_add_even h.1 hd, ?_⟩
  rw [stack, sp]
  exact h.2

/-- Settles O51: a call pushes pc itself, a return adds 2 to an entry, and a sum of even words is even. -/
theorem evenPcIsPreserved : Obligations.EvenPcIsPreserved := by
  unfold Obligations.EvenPcIsPreserved
  intro i s t h hpc hstack hjp hcall hjpV0
  have even : EvenCode s := ⟨hpc, hstack⟩
  have he := effect_of_exec h
  change EvenCode t
  cases he with
  | skipped c => cases c <;> exact even.advance (by decide) rfl rfl rfl
  | waiting => exact even
  | jumped nnn => exact ⟨by simpa [addrOf_toNat] using hjp nnn rfl, hstack⟩
  | jumpedV0 nnn =>
    have := hjpV0 nnn rfl
    refine ⟨?_, hstack⟩
    simp only [State.setPc_pc, BitVec.toNat_add, addrOf_toNat, BitVec.toNat_setWidth]
    omega
  | called nnn hsp =>
    refine ⟨by simpa [addrOf_toNat] using hcall nnn rfl, fun j hj => ?_⟩
    simp only [Fin.getElem_fin, Vector.getElem_set]
    split
    · exact hpc
    · exact hstack j (by simp only at hj; omega)
  | returned hsp =>
    refine ⟨toNat_add_even (hstack ⟨s.sp.val - 1, by omega⟩ (by simp only; omega)) rfl, fun j hj => hstack j ?_⟩
    simp only at hj
    omega
  | _ => exact even.advance (d := 2) (by decide) (by simp) (by simp) (by simp)

end Sys2Proof.Machine
end

section
/-! PROOF. O37: a canonical memory is determined by what it reads as. -/

namespace Sys2Proof.Machine

open Sys2Proof.Config

section
variable {p : Params} {m m' : Memory} {a : Nat} {b : Byte}

theorem Memory.mem_of_lookup (h : Memory.lookup m a = some b) : (a, b) ∈ m := by
  induction m with
  | nil => simp at h
  | cons c m ih =>
    obtain ⟨a', b'⟩ := c
    simp only [Memory.lookup] at h
    split at h
    · simp_all
    · exact List.mem_cons_of_mem _ (ih h)

theorem Memory.lookup_of_mem (sorted : m.Pairwise (fun c d => c.1 < d.1)) (h : (a, b) ∈ m) :
    Memory.lookup m a = some b := by
  induction m with
  | nil => simp at h
  | cons c m ih =>
    obtain ⟨below, sorted⟩ := List.pairwise_cons.1 sorted
    rcases List.mem_cons.1 h with rfl | h
    · simp [Memory.lookup]
    · rw [Memory.lookup, if_neg (below _ h).ne', ih sorted h]

/-- A canonical memory lists exactly the cells that read as something else than when unlisted. -/
theorem Memory.mem_iff_read (hm : Memory.wf p m) :
    (a, b) ∈ m ↔ Memory.read p m a = b ∧ b ≠ Memory.unlisted p a := by
  obtain ⟨sorted, listed⟩ := hm
  constructor
  · intro h
    exact ⟨by simp [Memory.read, Memory.lookup_of_mem sorted h], (listed _ h).2⟩
  · rintro ⟨hread, hne⟩
    cases hl : Memory.lookup m a with
    | none => exact absurd (by simp [← hread, Memory.read, hl]) hne
    | some c =>
      obtain rfl : c = b := by simpa [Memory.read, hl] using hread
      exact Memory.mem_of_lookup hl

theorem Memory.nodup (hm : Memory.wf p m) : m.Nodup := hm.1.imp fun h e => (e ▸ h).false

/-- Canonical memories that read alike list the same cells, and rising addresses leave one order for them. -/
theorem Memory.eq_of_read_eq (hm : Memory.wf p m) (hm' : Memory.wf p m')
    (h : ∀ a, Memory.read p m a = Memory.read p m' a) : m = m' := by
  have cells : ∀ c, c ∈ m ↔ c ∈ m' := fun (a, b) => by rw [Memory.mem_iff_read hm, Memory.mem_iff_read hm', h a]
  have perm : m.Perm m' := (List.perm_ext_iff_of_nodup (Memory.nodup hm) (Memory.nodup hm')).2 cells
  exact perm.eq_of_pairwise (fun c d _ _ hcd hdc => (hcd.asymm hdc).elim) hm.1 hm'.1

end

/-- Settles O37. -/
theorem canonicalMemoryIsUnique : Obligations.CanonicalMemoryIsUnique :=
  fun _ _ _ => Memory.eq_of_read_eq

end Sys2Proof.Machine
end

section
/-! PROOF. O55: stepping cannot be told from running freely. -/

namespace Sys2Proof.Machine

open Sys2Proof.Config

/-- `s` with another Debug Controller state and another schedule: all that stepping changes. -/
def State.scheduled (s : State) (d : Dbg) (env : List EnvEvent) : State := { s with dbg := d, env := env }

section
variable (s : State) (d : Dbg) (env : List EnvEvent)

@[simp] theorem State.scheduled_i : (s.scheduled d env).i = s.i := rfl
@[simp] theorem State.scheduled_params : (s.scheduled d env).params = s.params := rfl
@[simp] theorem State.scheduled_inputs : (s.scheduled d env).inputs = s.inputs := rfl
@[simp] theorem State.scheduled_pressedKeys : (s.scheduled d env).pressedKeys = s.pressedKeys := rfl
@[simp] theorem fetch_scheduled : fetch (s.scheduled d env) = fetch s := rfl

theorem State.indexFlag_scheduled (o : Bool) :
    (s.scheduled d env).indexFlag o = (s.indexFlag o).scheduled d env := by
  unfold State.indexFlag
  rw [State.scheduled_params]
  cases s.params.fx1eVfMode with
  | off => rfl
  | setOnly => cases o <;> rfl
  | setClear => rfl

theorem State.keySkip_scheduled (x : Reg) (whenPressed : Bool) :
    (s.scheduled d env).keySkip x whenPressed = (s.keySkip x whenPressed).scheduled d env := by
  unfold State.keySkip
  rw [apply_dite (State.scheduled · d env)]
  rfl

/-- No instruction reads DBG or the schedule. -/
theorem exec_scheduled (i : Instr) :
    exec i (s.scheduled d env) = andThen (exec i s) (·.scheduled d env) := by
  cases i with
  | ret | call =>
    simp only [exec, execRet, execCall]
    rw [apply_dite (andThen · (·.scheduled d env))]
    rfl
  | skp x => exact congrArg Host.Outcome.next (s.keySkip_scheduled d env x true)
  | sknp x => exact congrArg Host.Outcome.next (s.keySkip_scheduled d env x false)
  | addI x => exact congrArg (fun u => Host.Outcome.next (u.advance 2)) (State.indexFlag_scheduled (s.setI _) d env _)
  | drw x y n =>
    simp only [exec, execDrw, State.scheduled_i]
    cases rangeError s.i.toNat n.val <;> rfl
  | ldB x =>
    simp only [exec, execLdB, State.scheduled_i]
    cases rangeError s.i.toNat 3 <;> rfl
  | ldMemVx x =>
    simp only [exec, execLdMemVx, State.scheduled_i]
    cases rangeError s.i.toNat (blockSize x) <;> rfl
  | ldVxMem x =>
    simp only [exec, execLdVxMem, State.scheduled_i]
    cases rangeError s.i.toNat (blockSize x) <;> rfl
  | ldVxK x =>
    simp only [exec, execLdVxK, State.scheduled_params, State.scheduled_inputs, State.scheduled_pressedKeys]
    cases pickKey s.params.keywaitPick s.inputs.pick s.pressedKeys <;> rfl
  | _ => rfl

/-- Nor does a cycle. -/
theorem cycle_scheduled : cycle (s.scheduled d env) = andThen (cycle s) (·.scheduled d env) := by
  simp only [cycle, fetch_scheduled, State.scheduled_params]
  cases fetch s with
  | error bad => rfl
  | ok op =>
    simp only
    cases decodeWord s.params.strictLowNibble op with
    | error r => rfl
    | ok i => exact exec_scheduled s d env i

/-- What follows a cycle reads DBG to end a step, and the schedule not at all. -/
theorem State.afterCycle_scheduled :
    (s.scheduled d env).afterCycle = s.afterCycle.scheduled (if d = .stepPending then .paused else d) env := rfl

end

/-- One scheduled iteration leaves what it leaves, whether the machine runs freely or is stepped. -/
theorem step_scheduled (s : State) (d : Draw) :
    ∃ u : State, ∀ rest,
      step (s.scheduled .running (.iterate d :: rest)) = .next (u.scheduled .running rest) ∧
      step (s.scheduled .stepPending (.iterate d :: rest)) = .next (u.scheduled .paused rest) := by
  obtain ⟨t, ht, -⟩ := cycle_effect (s.withInputs d)
  have iterate : ∀ dbg rest, dbg ≠ .paused → step (s.scheduled dbg (.iterate d :: rest)) =
      .next (t.afterCycle.scheduled (if dbg = .stepPending then .paused else dbg) rest) := by
    intro dbg rest hd
    calc step (s.scheduled dbg (.iterate d :: rest))
        = iteration ((s.withInputs d).scheduled dbg rest) := rfl
      _ = andThen (cycle ((s.withInputs d).scheduled dbg rest)) State.afterCycle := if_neg hd
      _ = _ := by rw [cycle_scheduled, ht]; rfl
  exact ⟨t.afterCycle, fun rest => ⟨iterate .running rest (by decide), iterate .stepPending rest (by decide)⟩⟩

/-- A step signal to a paused machine makes the step pending. -/
theorem step_signal (s : State) (rest : List EnvEvent) :
    step (s.scheduled .paused (.host .step :: rest)) = .next (s.scheduled .stepPending rest) := rfl

theorem run_succ {s t : State} (n : Nat) (h : step s = .next t) :
    Host.Core.run core (n + 1) s = Host.Core.run core n t := by
  have hcore : core.step s = .next t := h
  simp only [Host.Core.run, hcore]

/-- Running through iterations and being stepped through them leave the same state but for DBG. -/
theorem run_scheduled (ds : List Draw) (s : State) :
    ∃ u : State,
      Host.Core.run core ds.length (s.scheduled .running (ds.map .iterate)) = .next (u.scheduled .running []) ∧
      Host.Core.run core (2 * ds.length) (s.scheduled .paused (ds.flatMap fun d => [.host .step, .iterate d])) =
        .next (u.scheduled .paused []) := by
  induction ds generalizing s with
  | nil => exact ⟨s, rfl, rfl⟩
  | cons d ds ih =>
    obtain ⟨t, ht⟩ := step_scheduled s d
    obtain ⟨u, free, stepped⟩ := ih t
    refine ⟨u, (run_succ ds.length (ht _).1).trans free, ?_⟩
    exact (run_succ (2 * ds.length + 1) (step_signal s _)).trans
      ((run_succ (2 * ds.length) (ht _).2).trans stepped)

/-- Settles O55. -/
theorem steppingIsInvisible : Obligations.SteppingIsInvisible := by
  unfold Obligations.SteppingIsInvisible
  intro ds s
  obtain ⟨u, free, stepped⟩ := run_scheduled ds s
  exact ⟨_, _, free, stepped, by simp [frame_iff, State.scheduled, State.readByte]⟩

end Sys2Proof.Machine
end

section
/-! SUPPORT. What memory reads as unlisted and after an image was loaded, and what a reset leaves in the registers. -/

namespace Sys2Proof.Machine

open Sys2Proof.Config

section
variable (p : Params) (s : State) {image : List Byte}

/-- Unlisted, row r of glyph d reads as FONT says: 5 × d + r has quotient d and remainder r by 5. -/
theorem Memory.unlisted_font (d : Fin 16) (r : Fin 5) : Memory.unlisted p (5 * d.val + r.val) = p.font[d][r] := by
  have inFont : 5 * d.val + r.val < 80 := by omega
  have glyph : (5 * d.val + r.val) / 5 = d.val := by omega
  have row : (5 * d.val + r.val) % 5 = r.val := by omega
  simp [Memory.unlisted, inFont, glyph, row]

theorem Memory.unlisted_of_ge {a : Nat} (h : 80 ≤ a) : Memory.unlisted p a = 0 := dif_neg (by omega)

theorem Memory.read_loadImage (image : List Byte) (a : Nat) : Memory.read p (loadImage p image) a =
    if h : 0x200 ≤ a ∧ a - 0x200 < image.length then image[a - 0x200] else Memory.unlisted p a :=
  Memory.read_writeBytes p image [] 0x200 a

/-- Where no byte of the image went, memory reads as it does unlisted. -/
theorem Memory.read_loadImage_outside {a : Nat} (h : a < 0x200 ∨ 0x200 + image.length ≤ a) :
    Memory.read p (loadImage p image) a = Memory.unlisted p a := by
  rw [Memory.read_loadImage, dif_neg (by omega)]

theorem Memory.read_loadImage_inside {j : Nat} (h : j < image.length) :
    Memory.read p (loadImage p image) (0x200 + j) = image[j] := by
  simp [Memory.read_loadImage, h]

theorem State.registersReset_fresh : RegistersReset s.fresh := by
  simp [RegistersReset, State.fresh, State.resetWith, State.reg, State.pixel]

/-- A reset with an image that fits: fresh but for the image (R262). -/
theorem State.hostReset_of_fits (h : image.length ≤ 3584) :
    s.hostReset (some image) = { s.fresh with mem := loadImage s.params image } := if_pos h

end

end Sys2Proof.Machine
end

section
/-! PROOF. O7: a reset loads the image at 0x200 and leaves everything else at its reset value. -/

namespace Sys2Proof.Machine

/-- Settles O7: the image covers no address below 0x200, so FONT and the zeros are those of unlisted memory. -/
theorem resetLoadsTheImage : Obligations.ResetLoadsTheImage := by
  unfold Obligations.ResetLoadsTheImage
  intro s image rest henv fits
  refine ⟨{ s.fresh with mem := loadImage s.params image, env := rest }, ?_, ?image, ?font, ?below, ?above,
    s.registersReset_fresh, rfl, rfl, rfl, rfl⟩
  · rw [step_eq_host henv]
    exact congrArg Host.Outcome.next (State.hostReset_of_fits _ fits)
  case image => exact fun j hj => Memory.read_loadImage_inside _ hj
  case font =>
    intro d r
    exact (Memory.read_loadImage_outside _ (.inl (by omega))).trans (Memory.unlisted_font _ d r)
  case below =>
    intro a font program
    exact (Memory.read_loadImage_outside _ (.inl program)).trans (Memory.unlisted_of_ge _ font)
  case above =>
    intro a beyond _
    exact (Memory.read_loadImage_outside _ (.inr beyond)).trans (Memory.unlisted_of_ge _ (by omega))

end Sys2Proof.Machine
end

section
/-! PROOF. O36: the bytes LD [I], Vx stores are what the next fetch reads. -/

namespace Sys2Proof.Machine

/-- LD [I], Vx whose block lies inside memory stores it and moves on (R144). -/
theorem exec_ldMemVx_of_le {s : State} {x : Reg} (h : s.i.toNat + x.val ≤ 4095) : exec (.ldMemVx x) s =
    .next (((s.storeBytes s.i.toNat (s.blockRegs x)).bumpI x).advance 2) := by
  have inside : rangeError s.i.toNat (blockSize x) = none := rangeError_eq_none.2 (.inr (by unfold blockSize; omega))
  change execLdMemVx x s = _
  rw [execLdMemVx, inside]

/-- Of a stored register block, Vr is the byte r places on. -/
theorem State.readByte_storeBytes_blockRegs (s : State) (a : Nat) {x r : Reg} (h : r ≤ x) :
    (s.storeBytes a (s.blockRegs x)).readByte (a + r.val) = s.reg r := by
  simp [State.readByte_storeBytes, h.not_gt]

/-- Settles O36: fetch reads the same memory the store wrote, at I + j and I + j + 1. -/
theorem storedBytesAreFetched : Obligations.StoredBytesAreFetched := by
  unfold Obligations.StoredBytesAreFetched
  intro s x j k inside hk hkx
  have hk_le : k.val ≤ x.val := hkx
  have hj_le : j.val ≤ x.val := by omega
  have high := s.readByte_storeBytes_blockRegs s.i.toNat (x := x) (r := j) hj_le
  have low := s.readByte_storeBytes_blockRegs s.i.toNat hkx
  rw [hk, ← Nat.add_assoc] at low
  have hpc : (s.i + BitVec.ofNat 16 j.val).toNat = s.i.toNat + j.val := by simp; omega
  refine ⟨_, exec_ldMemVx_of_le inside, fetch_eq_ok.2 ?_⟩
  simp only [hpc]
  exact ⟨by omega, congrArg₂ opcodeOf high.symm low.symm⟩

end Sys2Proof.Machine
end

section
/-! PROOF. O17: the word `withFetchWord` places is the one fetched. -/

namespace Sys2Proof.Machine

section
variable (s : State) (w : Word)

/-- Loading an iteration's inputs changes nothing that fetch reads. -/
@[simp] theorem fetch_loaded : fetch s.loaded = fetch s := by simp [fetch]

/-- The place chosen for the word has room for both its bytes. -/
theorem fetchPc_inside : (fetchPc s).toNat + 2 ≤ 4096 := by
  unfold fetchPc
  split
  · assumption
  · decide

theorem readByte_placeWord (a : Nat) : (placeWord s w).readByte a =
    (s.storeBytes (fetchPc s).toNat (wordBytes w)).readByte a := rfl

theorem fetch_placeWord : fetch (placeWord s w) = .ok w := by
  refine fetch_eq_ok.2 ⟨fetchPc_inside s, ?_⟩
  have hpc : (placeWord s w).pc = fetchPc s := rfl
  simp [hpc, readByte_placeWord, State.readByte_storeBytes, wordBytes]

/-- The host events at the head of the schedule are dropped, and Paused is left. -/
theorem placeWord_runs : (placeWord s w).runs := by
  constructor
  · intro e rest h
    have head := List.head?_dropWhile_not isHostEvent s.env
    have hd : s.env.dropWhile isHostEvent = .host e :: rest := h
    simp [hd, isHostEvent] at head
  · simp only [placeWord]
    split
    · decide
    · assumption

end

/-- Settles O17. -/
theorem fetchWordIsFetched : Obligations.FetchWordIsFetched := by
  unfold Obligations.FetchWordIsFetched
  intro s w hw
  have hword : s.withFetchWord 16 w = placeWord s (BitVec.ofNat 16 w) := by
    rw [State.withFetchWord, Nat.mod_eq_of_lt (b := 2 ^ 16) hw]
  rw [hword, fetch_loaded]
  exact ⟨placeWord_runs s _, fetch_placeWord s _⟩

end Sys2Proof.Machine
end

section
/-! SUPPORT. A word is the form of its fields, and what each mask of the opcode map keeps of a word. -/

namespace Sys2Proof

section
variable (op : Word)

theorem formNNN_fields : formNNN (fieldH op) (fieldNNN op) = op := by
  apply BitVec.eq_of_toNat_eq
  rw [formNNN_toNat, fieldH_toNat, fieldNNN_toNat]
  omega

theorem formXNN_fields : formXNN (fieldH op) (fieldX op) (fieldNN op) = op := by
  apply BitVec.eq_of_toNat_eq
  rw [formXNN_toNat, fieldH_toNat, fieldX_val, fieldNN_toNat]
  omega

theorem formXYN_fields : formXYN (fieldH op) (fieldX op) (fieldY op) (BitVec.ofFin (fieldN op)) = op := by
  have low : (BitVec.ofFin (fieldN op) : BitVec 4).toNat = op.toNat % 16 := fieldN_val op
  apply BitVec.eq_of_toNat_eq
  rw [formXYN_toNat, fieldH_toNat, fieldX_val, fieldY_val, low]
  omega

end

section
variable {op : Word} {h : BitVec 4}

theorem formNNN_eq_of_fields (group : (fieldH op).toNat = h.toNat) : formNNN h (fieldNNN op) = op := by
  rw [← BitVec.eq_of_toNat_eq group, formNNN_fields]

theorem formXNN_eq_of_fields {nn : Byte} (group : (fieldH op).toNat = h.toNat)
    (low : (fieldNN op).toNat = nn.toNat) : formXNN h (fieldX op) nn = op := by
  rw [← BitVec.eq_of_toNat_eq group, ← BitVec.eq_of_toNat_eq low, formXNN_fields]

theorem formXYN_eq_of_fields {n : BitVec 4} (group : (fieldH op).toNat = h.toNat)
    (low : (fieldN op).val = n.toNat) : formXYN h (fieldX op) (fieldY op) n = op := by
  have hn : BitVec.ofFin (fieldN op) = n := BitVec.eq_of_toNat_eq low
  rw [← BitVec.eq_of_toNat_eq group, ← hn, formXYN_fields]

end

/-! ## Masks: a word meets a row exactly when the fields its mask keeps are those of the match -/

section
open Laws.RowMatch
variable (strict : Bool) (op m : Word)

@[simp] theorem and_FFFF_eq_iff : op &&& 0xFFFF#16 = m ↔
    (fieldH op).toNat = m.toNat / 4096 ∧ (fieldNNN op).toNat = m.toNat % 4096 := by
  have keeps : op &&& 0xFFFF#16 = op := BitVec.and_allOnes
  rw [keeps, ← BitVec.toNat_inj, fieldH_toNat, fieldNNN_toNat]
  omega

@[simp] theorem and_F000_eq_iff : op &&& 0xF000#16 = m ↔ (fieldH op).toNat = m.toNat / 4096 ∧ 0 = m.toNat % 4096 := by
  have keeps : op &&& 0xF000#16 = formNNN (fieldH op) 0#12 := by
    conv => lhs; rw [← formNNN_fields op]
    exact mask_formNNN _ _
  rw [keeps, ← BitVec.toNat_inj, formNNN_toNat, BitVec.toNat_zero]
  omega

@[simp] theorem and_F0FF_eq_iff : op &&& 0xF0FF#16 = m ↔
    (fieldH op).toNat = m.toNat / 4096 ∧ (fieldNN op).toNat = m.toNat % 4096 := by
  have keeps : op &&& 0xF0FF#16 = formXNN (fieldH op) 0 (fieldNN op) := by
    conv => lhs; rw [← formXNN_fields op]
    exact mask_formXNN_low _ _ _
  rw [keeps, ← BitVec.toNat_inj, formXNN_toNat, Fin.val_zero]
  omega

@[simp] theorem and_F00F_eq_iff : op &&& 0xF00F#16 = m ↔
    (fieldH op).toNat = m.toNat / 4096 ∧ (fieldN op).val = m.toNat % 4096 := by
  have keeps : op &&& 0xF00F#16 = formXYN (fieldH op) 0 0 (BitVec.ofFin (fieldN op)) := by
    conv => lhs; rw [← formXYN_fields op]
    exact mask_formXYN_low _ _ _ _
  have low : (BitVec.ofFin (fieldN op) : BitVec 4).toNat = (fieldN op).val := rfl
  rw [keeps, ← BitVec.toNat_inj, formXYN_toNat, Fin.val_zero, low]
  omega

/-- Groups 5 and 9 (R69): the low nibble counts only under STRICT_LOW_NIBBLE. -/
@[simp] theorem and_xy0Mask_eq_iff : op &&& xy0Mask strict = m ↔
    (fieldH op).toNat = m.toNat / 4096 ∧ (if strict then (fieldN op).val else 0) = m.toNat % 4096 := by
  cases strict
  · exact and_F000_eq_iff op m
  · exact and_F00F_eq_iff op m

end

end Sys2Proof
end

section
/-! PROOF. O1 and O2: the decoder takes the encoder's bytes back to the instruction. -/

namespace Sys2Proof

/-- A 12-bit address other than those of CLS and RET is the legacy call's (R65). -/
theorem decodeGroup0_formNNN {nnn : Addr12} (wf : (Instr.sys nnn).wellFormed = true) :
    decodeGroup0 (formNNN 0x0#4 nnn) = .ok (.sys nnn) := by
  have ne : ∀ op : Word, nnn ≠ fieldNNN op → formNNN 0x0#4 nnn ≠ op := by
    rintro _ hne rfl
    exact hne (fieldNNN_formNNN 0x0#4 nnn).symm
  obtain ⟨hcls, hret⟩ : nnn ≠ fieldNNN 0x00E0#16 ∧ nnn ≠ fieldNNN 0x00EE#16 := by
    simpa [Instr.wellFormed, fieldNNN] using wf
  rw [decodeGroup0, if_neg (ne _ hcls), if_neg (ne _ hret), fieldNNN_formNNN]

/-- But for group 0, the decoder branches on fields alone, and the fields of a form are the parts it was built from. -/
theorem decodeWord_encodeWord (strict : Bool) {i : Instr} (wf : i.wellFormed = true) :
    decodeWord strict (encodeWord i) = .ok i := by
  cases i with
  | cls | ret => rfl
  | sys nnn => simp [decodeWord, encodeWord, decodeGroup0_formNNN wf]
  | _ => simp [decodeWord, encodeWord, decodeXY0, decodeGroup8, decodeGroupE, decodeGroupF]

/-- Settles O1. -/
theorem sampleWordsDecode : Obligations.SampleWordsDecode := by
  unfold Obligations.SampleWordsDecode
  exact ⟨rfl, rfl, rfl, rfl, rfl, rfl, rfl, rfl, rfl, rfl, rfl, rfl⟩

theorem decode_wordBytes {strict : Bool} {w : Word} {i : Instr} (h : decodeWord strict w = .ok i) (rest : List Byte) :
    decode strict (wordBytes w ++ rest) = .ok (i, rest) := by
  simp [wordBytes, decode, h]

/-- Settles O2: two bytes make the word they came from again, and the word's fields are the operands. -/
theorem decodeOfEncodeIsIdentity : Obligations.DecodeOfEncodeIsIdentity := by
  unfold Obligations.DecodeOfEncodeIsIdentity
  intro i strict rest wf
  exact decode_wordBytes (decodeWord_encodeWord strict wf) rest

end Sys2Proof
end

section
/-! PROOF. O3, O4 and O5: what the decoder can answer for an opcode, and the first row of the opcode map for each answer. -/

namespace Sys2Proof

/-- The opcodes R70 leaves without an operation, with R69's under the strict parameter. -/
def UnknownPattern (strict : Bool) (op : Word) : Prop :=
  ((fieldH op).toNat = 0x8 ∧ (fieldN op).val ∈ [0x8, 0x9, 0xA, 0xB, 0xC, 0xD, 0xF]) ∨
  ((fieldH op).toNat = 0xE ∧ (fieldNN op).toNat ∉ [0x9E, 0xA1]) ∨
  ((fieldH op).toNat = 0xF ∧ (fieldNN op).toNat ∉ [0x07, 0x0A, 0x15, 0x18, 0x1E, 0x29, 0x33, 0x55, 0x65]) ∨
  (strict = true ∧ (fieldH op).toNat ∈ [0x5, 0x9] ∧ (fieldN op).val ≠ 0)

/-- The two groups whose low nibble is free but for the strict parameter (R69), each with its instruction. -/
def XY0Group (op : Word) (i : Reg → Reg → Instr) : Prop :=
  ((fieldH op).toNat = 0x5 ∧ i = .seReg) ∨ ((fieldH op).toNat = 0x9 ∧ i = .sneReg)

/-- What the decoder can answer for `op`: the instruction `op` encodes, one whose low nibble was ignored, or UNKNOWN. -/
inductive Decoded (strict : Bool) (op : Word) : Except Reject Instr → Prop
  | canonical {i : Instr} (wf : i.wellFormed = true) (word : encodeWord i = op) : Decoded strict op (.ok i)
  | loose {i : Reg → Reg → Instr} (notStrict : strict = false) (group : XY0Group op i) (x y : Reg) :
      Decoded strict op (.ok (i x y))
  | unknown (pattern : UnknownPattern strict op) : Decoded strict op (.error .unknown)

section
variable {strict : Bool} {op : Word}

theorem decodeGroup0_decoded (group : (fieldH op).toNat = 0x0) : Decoded strict op (decodeGroup0 op) := by
  have word : formNNN 0x0#4 (fieldNNN op) = op := formNNN_eq_of_fields group
  unfold decodeGroup0
  split_ifs with hcls hret
  · exact .canonical rfl hcls.symm
  · exact .canonical rfl hret.symm
  · have ne : ∀ nnn, op ≠ formNNN 0x0#4 nnn → fieldNNN op ≠ nnn := by
      rintro _ hne rfl
      exact hne word.symm
    refine .canonical ?_ word
    simpa [Instr.wellFormed] using ⟨ne 0x0E0#12 hcls, ne 0x0EE#12 hret⟩

theorem decodeXY0_decoded {i : Reg → Reg → Instr} (group : XY0Group op i) :
    Decoded strict op (decodeXY0 strict op i) := by
  unfold decodeXY0
  split_ifs with low
  · obtain ⟨hstrict, hn⟩ : strict = true ∧ fieldN op ≠ 0 := by simpa using low
    have groups : (fieldH op).toNat ∈ [0x5, 0x9] := by simpa using group.imp And.left And.left
    exact .unknown (.inr (.inr (.inr ⟨hstrict, groups, Fin.val_ne_zero_iff.2 hn⟩)))
  · cases strict with
    | false => exact .loose rfl group _ _
    | true =>
      have hn : fieldN op = 0 := by simpa using low
      rcases group with ⟨group, rfl⟩ | ⟨group, rfl⟩ <;>
        exact .canonical rfl (formXYN_eq_of_fields group (congrArg Fin.val hn))

theorem decodeGroup8_decoded (group : (fieldH op).toNat = 0x8) : Decoded strict op (decodeGroup8 op) := by
  unfold decodeGroup8
  simp only
  split
  case h_10 =>
    refine .unknown (.inl ⟨group, ?_⟩)
    simp only [imp_false] at *
    simp only [List.mem_cons, List.not_mem_nil, or_false]
    omega
  all_goals exact .canonical rfl (formXYN_eq_of_fields group ‹_›)

theorem decodeGroupE_decoded (group : (fieldH op).toNat = 0xE) : Decoded strict op (decodeGroupE op) := by
  unfold decodeGroupE
  split
  case h_3 => exact .unknown (.inr (.inl ⟨group, by simp_all⟩))
  all_goals exact .canonical rfl (formXNN_eq_of_fields group ‹_›)

theorem decodeGroupF_decoded (group : (fieldH op).toNat = 0xF) : Decoded strict op (decodeGroupF op) := by
  unfold decodeGroupF
  simp only
  split
  case h_10 => exact .unknown (.inr (.inr (.inl ⟨group, by simp_all⟩)))
  all_goals exact .canonical rfl (formXNN_eq_of_fields group ‹_›)

end

/-- The decoder's answers, along its classification by groups (R63). -/
theorem decoded (strict : Bool) (op : Word) : Decoded strict op (decodeWord strict op) := by
  unfold decodeWord
  split
  case h_1 group => exact decodeGroup0_decoded group
  case h_2 group | h_3 group | h_11 group | h_12 group => exact .canonical rfl (formNNN_eq_of_fields group)
  case h_4 group | h_5 group | h_7 group | h_8 group | h_13 group =>
    exact .canonical rfl (formXNN_eq_of_fields group rfl)
  case h_6 group => exact decodeXY0_decoded (.inl ⟨group, rfl⟩)
  case h_9 group => exact decodeGroup8_decoded group
  case h_10 group => exact decodeXY0_decoded (.inr ⟨group, rfl⟩)
  case h_14 group => exact .canonical rfl (formXYN_eq_of_fields group rfl)
  case h_15 group => exact decodeGroupE_decoded group
  case h_16 group => exact decodeGroupF_decoded group
  case h_17 =>
    have := (fieldH op).isLt
    simp only [imp_false] at *
    omega

/-! ## The first row of the opcode map -/

section
variable {strict : Bool} {op : Word}

/-- The fields of an encoding meet no row before its own: an earlier row asks for another group, or for another value in the
bits its mask keeps. -/
theorem firstRow_encodeWord (strict : Bool) {i : Instr} (wf : i.wellFormed = true) :
    firstRow strict (encodeWord i) = some (rowOf i) := by
  cases i with
  | cls | ret => cases strict <;> rfl
  | sys nnn =>
    obtain ⟨hcls, hret⟩ : nnn.toNat ≠ 0x0E0 ∧ nnn.toNat ≠ 0x0EE := by
      simpa [Instr.wellFormed, ← BitVec.toNat_inj] using wf
    simp [firstRow, opcodeMap, List.findIdx?_cons, encodeWord, rowOf, hcls, hret]
  | _ => simp [firstRow, opcodeMap, List.findIdx?_cons, encodeWord, rowOf]

theorem firstRow_of_xy0Group {i : Reg → Reg → Instr} (group : XY0Group op i) (x y : Reg) :
    firstRow false op = some (rowOf (i x y)) := by
  rcases group with ⟨group, rfl⟩ | ⟨group, rfl⟩ <;>
    simp [firstRow, opcodeMap, List.findIdx?_cons, rowOf, group]

/-- Read in fields, every row asks for another group than a pattern's, or for a low nibble or byte the pattern excludes. -/
theorem firstRow_of_unknownPattern (pattern : UnknownPattern strict op) : firstRow strict op = none := by
  simp only [firstRow, List.findIdx?_eq_none_iff, beq_eq_false_iff_ne, ne_eq, opcodeMap, List.forall_mem_cons,
    List.not_mem_nil, false_implies, implies_true, and_true, BitVec.ofNat_eq_ofNat, BitVec.toNat_ofNat, and_FFFF_eq_iff,
    and_F000_eq_iff, and_xy0Mask_eq_iff, and_F00F_eq_iff, and_F0FF_eq_iff]
  simp only [UnknownPattern, List.mem_cons, List.not_mem_nil, or_false, not_or] at pattern
  rcases pattern with ⟨group, hn⟩ | ⟨group, hn⟩ | ⟨group, hn⟩ | ⟨rfl, group, hn⟩
  · omega
  · omega
  · omega
  · simp only [↓reduceIte]
    omega

end

/-- Settles O3: only an ignored low nibble gives a word another instruction's. -/
theorem strictDecodeHasOneEncoding : Obligations.StrictDecodeHasOneEncoding := by
  unfold Obligations.StrictDecodeHasOneEncoding
  intro op i h
  have d : Decoded true op (.ok i) := h ▸ decoded true op
  cases d with
  | canonical wf word => exact ⟨word, wf⟩
  | loose notStrict => cases notStrict

/-- Settles O5. -/
theorem decoderFollowsTheOpcodeMap : Obligations.DecoderFollowsTheOpcodeMap := by
  unfold Obligations.DecoderFollowsTheOpcodeMap
  intro strict op
  constructor
  · intro i h
    have d : Decoded strict op (.ok i) := h ▸ decoded strict op
    cases d with
    | canonical wf word => exact word ▸ firstRow_encodeWord strict wf
    | loose notStrict group x y => exact notStrict ▸ firstRow_of_xy0Group group x y
  · intro r h
    have d : Decoded strict op (.error r) := h ▸ decoded strict op
    cases d with
    | unknown pattern => exact ⟨rfl, firstRow_of_unknownPattern pattern⟩

/-- Settles O4: where the decoder answers an instruction a row of the map fits, and no row fits a pattern. -/
theorem unknownPatternsExactly : Obligations.UnknownPatternsExactly := by
  unfold Obligations.UnknownPatternsExactly
  intro strict op
  simp only [← fieldH_toNat, ← fieldN_val, ← fieldNN_toNat]
  change _ ↔ UnknownPattern strict op
  constructor
  · intro h
    have d : Decoded strict op (.error .unknown) := h ▸ decoded strict op
    cases d with
    | unknown pattern => exact pattern
  · intro pattern
    obtain ⟨rows, refusals⟩ := decoderFollowsTheOpcodeMap strict op
    cases h : decodeWord strict op with
    | ok i => exact absurd (rows i h) (by simp [firstRow_of_unknownPattern pattern])
    | error r => rw [(refusals r h).1]

end Sys2Proof
end

section
/-! SUPPORT. Frames in sequence, and instructions in sequence. -/

namespace Sys2Proof.Machine

section
variable {s t u : State} {L : List Field}

theorem State.agree_trans {f : Field} (h : s.agree t f) (h' : t.agree u f) : s.agree u f := by
  cases f with
  | mem => exact fun a => (h' a).trans (h a)
  | _ => exact Eq.trans h' h

theorem Frame.refl (L : List Field) (s : State) : Frame L s s := frame_iff.2 (by simp)

theorem Frame.trans (h : Frame L s t) (h' : Frame L t u) : Frame L s u :=
  fun f hf => State.agree_trans (h f hf) (h' f hf)

/-- Setting pc changes nothing else. -/
theorem State.setPc_frame (s : State) (w : Word) : Frame [.pc] s (s.setPc w) := by
  simp [frame_iff, State.readByte]

theorem execAll_cons {i : Instr} (h : exec i s = .next t) (is : List Instr) : execAll (i :: is) s = execAll is t := by
  rw [execAll, h]

theorem execAll_append {is : List Instr} (h : execAll is s = .next t) (js : List Instr) :
    execAll (is ++ js) s = execAll js t := by
  induction is generalizing s with
  | nil =>
    obtain rfl : s = t := by simpa [execAll] using h
    rfl
  | cons i is ih =>
    obtain ⟨u, hu, -⟩ := exec_effect i s
    rw [execAll_cons hu] at h
    rw [List.cons_append, execAll_cons hu, ih h]

end

end Sys2Proof.Machine
end

section
/-! PROOF. O18 to O21: the four transfers, one at a time. -/

namespace Sys2Proof.Machine

/-- Settles O18. -/
theorem jumpGoesToItsTarget : Obligations.JumpGoesToItsTarget :=
  fun s nnn => ⟨_, rfl, addrOf_toNat nnn, s.setPc_frame _⟩

/-- Settles O21: a 12-bit address and a byte add up within 16 bits. -/
theorem jumpPlusOffset : Obligations.JumpPlusOffset := by
  unfold Obligations.JumpPlusOffset
  intro s nnn
  refine ⟨_, rfl, ?_, s.setPc_frame _⟩
  have hnnn := nnn.isLt
  have hv0 := (s.reg 0).isLt
  simp only [State.setPc_pc, BitVec.toNat_add, addrOf_toNat, BitVec.toNat_setWidth]
  omega

section
variable {s : State}

/-- A call with room on the stack (R101). -/
theorem exec_call_of_lt (nnn : Addr12) (h : s.sp.val < 16) : exec (.call nnn) s =
    .next { s with stack := s.stack.set s.sp.val s.pc, sp := ⟨s.sp.val + 1, by omega⟩, pc := addrOf nnn } :=
  dif_pos h

/-- A call with a full stack (R101). -/
theorem exec_call_of_full (nnn : Addr12) (h : s.sp.val = 16) :
    exec (.call nnn) s = .next (s.reject (.stackOverflow nnn)) :=
  dif_neg (by omega)

/-- A return with an entry on the stack (R102). -/
theorem exec_ret_of_pos (h : 0 < s.sp.val) : exec .ret s =
    .next { s with sp := ⟨s.sp.val - 1, by omega⟩, pc := s.stack[s.sp.val - 1] + 2 } :=
  dif_pos h

/-- A return with an empty stack (R102). -/
theorem exec_ret_of_empty (h : s.sp.val = 0) : exec .ret s = .next (s.reject .stackUnderflow) :=
  dif_neg (by omega)

end

/-- Settles O19: SP below 16 names the entry written. -/
theorem callPushesItsOwnAddress : Obligations.CallPushesItsOwnAddress := by
  unfold Obligations.CallPushesItsOwnAddress
  intro s nnn
  constructor
  · intro k hk
    refine ⟨_, exec_call_of_lt nnn (by omega), ?top, fun j hj => ?others, rfl, addrOf_toNat nnn, ?frame⟩
    case top => simp [hk]
    case others =>
      have hne : s.sp.val ≠ j.val := fun h => hj (Fin.ext (by omega))
      simp [hne]
    case frame => simp [frame_iff, State.readByte]
  · intro full
    exact ⟨_, exec_call_of_full nnn full, rejected_reject s _⟩

/-- Settles O20: SP above 0 names the entry popped. -/
theorem returnPopsAndAddsTwo : Obligations.ReturnPopsAndAddsTwo := by
  unfold Obligations.ReturnPopsAndAddsTwo
  intro s
  constructor
  · intro k hk
    refine ⟨_, exec_ret_of_pos (by omega), ?sp, ?pc, ?frame⟩
    case sp => simp [hk]
    case pc => simp [hk]
    case frame => simp [frame_iff, State.readByte]
  · intro empty
    exact ⟨_, exec_ret_of_empty empty, rejected_reject s _⟩

end Sys2Proof.Machine
end

section
/-! PROOF. O22: calls in sequence push their call sites, and returns in sequence pop them again. -/

namespace Sys2Proof.Machine

/-- Calls that fit the stack all succeed: the entries below the first one are kept, and the i-th call's site stands i entries
above. -/
theorem execAll_calls (targets : List Addr12) (s : State) (fits : s.sp.val + targets.length ≤ 16) :
    ∃ t, execAll (targets.map .call) s = .next t ∧ t.sp.val = s.sp.val + targets.length ∧
      Frame [.stack, .sp, .pc] s t ∧ (∀ j : Fin 16, j.val < s.sp.val → t.stack[j] = s.stack[j]) ∧
      ∀ (i : Nat) (j : Fin 16), i < targets.length → j.val = s.sp.val + i →
        (s.pc :: targets.map addrOf)[i]? = some t.stack[j] := by
  induction targets generalizing s with
  | nil => exact ⟨s, rfl, rfl, .refl _ s, fun _ _ => rfl, fun i _ hi => absurd hi (Nat.not_lt_zero i)⟩
  | cons nnn rest ih =>
    rw [List.length_cons] at fits
    obtain ⟨k, hk⟩ : ∃ k : Fin 16, s.sp.val = k.val := ⟨⟨s.sp.val, by omega⟩, rfl⟩
    obtain ⟨u, hcall, top, others, usp, upc, uframe⟩ := (callPushesItsOwnAddress s nnn).1 k hk
    replace upc : u.pc = addrOf nnn := BitVec.eq_of_toNat_eq (upc.trans (addrOf_toNat nnn).symm)
    obtain ⟨t, hrest, tsp, tframe, below, sites⟩ := ih u (by omega)
    refine ⟨t, (execAll_cons hcall _).trans hrest, ?sp, uframe.trans tframe, fun j hj => ?below, fun i j hi hj => ?sites⟩
    case sp => rw [tsp, usp, List.length_cons]; omega
    case below => rw [below j (by omega), others j (Fin.ne_of_val_ne (by omega))]
    case sites =>
      cases i with
      | zero =>
        obtain rfl : k = j := Fin.ext (by omega)
        rw [below k (by omega), top]
        rfl
      | succ i =>
        rw [List.getElem?_cons_succ, List.map_cons, ← upc]
        exact sites i j (Nat.lt_of_succ_lt_succ hi) (by omega)

/-- As many returns as entries or fewer all succeed, and the last one goes to what it popped plus 2. -/
theorem execAll_returns (k : Nat) (s : State) (h : k ≤ s.sp.val) :
    ∃ u, execAll (List.replicate k .ret) s = .next u ∧ u.sp.val = s.sp.val - k ∧ Frame [.sp, .pc] s u ∧
      ∀ j : Fin 16, 0 < k → j.val + k = s.sp.val → u.pc = s.stack[j] + 2 := by
  induction k with
  | zero => exact ⟨s, rfl, rfl, .refl _ s, fun _ hk => absurd hk (Nat.lt_irrefl 0)⟩
  | succ k ih =>
    obtain ⟨u, hu, usp, uframe, -⟩ := ih (by omega)
    obtain ⟨p, hp⟩ : ∃ p : Fin 16, s.sp.val = p.val + (k + 1) := ⟨⟨s.sp.val - (k + 1), by omega⟩, by simp only; omega⟩
    obtain ⟨t, hret, tsp, tpc, tframe⟩ := (returnPopsAndAddsTwo u).1 p (by omega)
    have stack : u.stack = s.stack := uframe .stack (by decide)
    refine ⟨t, ?run, by omega, uframe.trans tframe, fun j _ hj => ?pc⟩
    case run => rw [List.replicate_succ', execAll_append hu, execAll_cons hret]; rfl
    case pc =>
      obtain rfl : j = p := Fin.ext (by omega)
      rw [tpc, stack]

/-- Settles O22: the entry the k-th return pops is the site of the k-th last call. -/
theorem callsReturnLastFirst : Obligations.CallsReturnLastFirst := by
  unfold Obligations.CallsReturnLastFirst
  intro s targets fits
  obtain ⟨t, hcalls, tsp, tframe, -, sites⟩ := execAll_calls targets s fits
  refine ⟨t, hcalls, tsp, tframe .esr (by decide), fun k hpos hk => ?_⟩
  obtain ⟨u, hrets, usp, uframe, upc⟩ := execAll_returns k t (by omega)
  refine ⟨u, hrets, by omega, ?pc, tframe.trans (uframe.mono (by simp))⟩
  case pc =>
    obtain ⟨p, hp⟩ : ∃ p : Fin 16, p.val = s.sp.val + (targets.length - k) := ⟨⟨_, by omega⟩, rfl⟩
    rw [sites (targets.length - k) p (by omega) hp, upc p hpos (by omega)]
    rfl

end Sys2Proof.Machine
end

section
/-! PROOF. O23 to O25: each skip is `skipIf` on a test of its own. -/

namespace Sys2Proof.Machine

section
variable {s : State} {x : Reg}

/-- A skip on a Boolean test skips on the proposition the test decides. -/
theorem skipped_skipIf_of_iff {c : Bool} {d : Prop} (h : d ↔ c = true) : Skipped d s (s.skipIf c) :=
  (skipped_skipIf s c).of_iff h

theorem State.pressed_iff (k : Fin 16) : s.pressed k = true ↔ s.key[k] ≠ 0 := bne_iff_ne

/-- A skip on a key that Vx names (R114, R115). -/
theorem State.keySkip_of_key {k : Fin 16} (h : (s.reg x).toNat = k.val) (whenPressed : Bool) :
    s.keySkip x whenPressed = s.skipIf (s.pressed k == whenPressed) := by
  have lt : (s.reg x).toNat < 16 := h ▸ k.isLt
  obtain rfl : ⟨(s.reg x).toNat, lt⟩ = k := Fin.ext h
  exact dif_pos lt

/-- A skip on a key when Vx names none (R208). -/
theorem State.keySkip_of_not_key (h : 15 < (s.reg x).toNat) (whenPressed : Bool) :
    s.keySkip x whenPressed = s.reject (.keyRange (s.reg x)) :=
  dif_neg (Nat.not_lt.2 h)

theorem State.keySkip_rejected (h : 15 < (s.reg x).toNat) (whenPressed : Bool) :
    Rejected (.keyRange (s.reg x)) s (s.keySkip x whenPressed) := by
  rw [State.keySkip_of_not_key h]
  exact rejected_reject s _

/-- With `whenPressed` the skip is taken on a pressed key. -/
theorem State.keySkip_true_skipped {k : Fin 16} (h : (s.reg x).toNat = k.val) :
    Skipped (s.key[k] ≠ 0) s (s.keySkip x true) := by
  rw [State.keySkip_of_key h]
  exact skipped_skipIf_of_iff (by rw [beq_true, State.pressed_iff])

/-- Without `whenPressed` the skip is taken on a released key. -/
theorem State.keySkip_false_skipped {k : Fin 16} (h : (s.reg x).toNat = k.val) :
    Skipped (s.key[k] = 0) s (s.keySkip x false) := by
  rw [State.keySkip_of_key h]
  exact skipped_skipIf_of_iff (by rw [beq_false, Bool.not_eq_true', ← Bool.not_eq_true, State.pressed_iff, not_not])

end

/-- Settles O23. -/
theorem skipOnImmediate : Obligations.SkipOnImmediate :=
  fun _ _ _ => ⟨⟨_, rfl, skipped_skipIf_of_iff beq_iff_eq.symm⟩, ⟨_, rfl, skipped_skipIf_of_iff bne_iff_ne.symm⟩⟩

/-- Settles O24. -/
theorem skipOnRegisters : Obligations.SkipOnRegisters :=
  fun _ _ _ => ⟨⟨_, rfl, skipped_skipIf_of_iff beq_iff_eq.symm⟩, ⟨_, rfl, skipped_skipIf_of_iff bne_iff_ne.symm⟩⟩

/-- Settles O25: Vx names a key or it does not, and `keySkip` answers each case for both instructions. -/
theorem skipOnKey : Obligations.SkipOnKey := by
  unfold Obligations.SkipOnKey
  intro s x
  constructor
  · intro k h
    exact ⟨⟨_, rfl, State.keySkip_true_skipped h⟩, ⟨_, rfl, State.keySkip_false_skipped h⟩⟩
  · intro h
    exact ⟨⟨_, rfl, State.keySkip_rejected h true⟩, ⟨_, rfl, State.keySkip_rejected h false⟩⟩

end Sys2Proof.Machine
end

section
/-! SUPPORT. The results and flags of the arithmetic group (42_arith.md), in numbers. -/

namespace Sys2Proof.Machine

section
variable (a b : Byte)

/-! ## Results -/

theorem sub_eq_ofNat : a - b = BitVec.ofNat 8 (a.toNat + 256 - b.toNat) := by
  rw [BitVec.sub_def]
  congr 1
  have := b.isLt
  omega

theorem ushiftRight_one_eq_ofNat : a >>> 1 = BitVec.ofNat 8 (a.toNat / 2) := by
  apply BitVec.eq_of_toNat_eq
  have := a.isLt
  simp only [BitVec.toNat_ushiftRight, Nat.shiftRight_eq_div_pow, BitVec.toNat_ofNat]
  omega

theorem shiftLeft_one_eq_ofNat : a <<< 1 = BitVec.ofNat 8 (a.toNat * 2) := by
  apply BitVec.eq_of_toNat_eq
  simp only [BitVec.toNat_shiftLeft, Nat.shiftLeft_eq, BitVec.toNat_ofNat, pow_one]

/-! ## Flags -/

theorem flagByte_carry : flagByte (carry a b) = if 255 < a.toNat + b.toNat then 1 else 0 := by
  simp [flagByte, carry]

theorem flagByte_noBorrow : flagByte (noBorrow a b) = if b.toNat ≤ a.toNat then 1 else 0 := by
  simp [flagByte, noBorrow]

theorem flagByte_eq_ofNat (f : Bool) : flagByte f = BitVec.ofNat 8 f.toNat := by cases f <;> rfl

theorem outRight_toNat : (outRight a).toNat = a.toNat % 2 := by
  rw [outRight, BitVec.getLsbD, Nat.toNat_testBit, pow_zero, Nat.div_one]

/-- Bit 7 is the top bit of a byte, so the quotient needs no reduction. -/
theorem outLeft_toNat : (outLeft a).toNat = a.toNat / 128 := by
  rw [outLeft, BitVec.getLsbD, Nat.toNat_testBit]
  have := a.isLt
  omega

theorem flagByte_outRight : flagByte (outRight a) = BitVec.ofNat 8 (a.toNat % 2) := by
  rw [flagByte_eq_ofNat, outRight_toNat]

theorem flagByte_outLeft : flagByte (outLeft a) = BitVec.ofNat 8 (a.toNat / 128) := by
  rw [flagByte_eq_ofNat, outLeft_toNat]

end

/-- `assignFlag` writes the byte and the flag under any of their spellings. -/
theorem flagAssigned_assignFlag_of_eq (s : State) (x : Reg) {b result flag : Byte} {f : Bool}
    (hb : b = result) (hf : flagByte f = flag) : FlagAssigned x result flag s (s.assignFlag x b f) :=
  hb ▸ hf ▸ flagAssigned_assignFlag s x b f

end Sys2Proof.Machine
end

section
/-! PROOF. O26 to O29: each instruction is `assign` or `assignFlag` of a result (and a flag) of its own. -/

namespace Sys2Proof.Machine

/-- Settles O26: the sum modulo 256 is the sum of two bytes. -/
theorem assignmentsAndLogic : Obligations.AssignmentsAndLogic := by
  unfold Obligations.AssignmentsAndLogic
  intro s x y nn
  refine ⟨⟨_, rfl, ?ldByte⟩, ⟨_, rfl, ?addByte⟩, ⟨_, rfl, ?ldReg⟩, ⟨_, rfl, ?orReg⟩, ⟨_, rfl, ?andReg⟩, ⟨_, rfl, ?xorReg⟩⟩
  case addByte => rw [← BitVec.add_def]; exact assigned_assign s x _
  all_goals exact assigned_assign s x _

/-- Settles O27. -/
theorem addWithCarry : Obligations.AddWithCarry :=
  fun s x y => ⟨_, rfl, flagAssigned_assignFlag_of_eq s x (BitVec.add_def (s.reg x) (s.reg y)) (flagByte_carry _ _)⟩

/-- Settles O28: SUBN is SUB with its operands exchanged. -/
theorem subtractWithBorrow : Obligations.SubtractWithBorrow := by
  unfold Obligations.SubtractWithBorrow
  intro s x y
  constructor
  · exact ⟨_, rfl, flagAssigned_assignFlag_of_eq s x (sub_eq_ofNat (s.reg x) (s.reg y)) (flagByte_noBorrow _ _)⟩
  · exact ⟨_, rfl, flagAssigned_assignFlag_of_eq s x (sub_eq_ofNat (s.reg y) (s.reg x)) (flagByte_noBorrow _ _)⟩

/-- Settles O29: neither shift reads y. -/
theorem shiftsInPlace : Obligations.ShiftsInPlace := by
  unfold Obligations.ShiftsInPlace
  intro s x _
  constructor
  · exact ⟨_, rfl, flagAssigned_assignFlag_of_eq s x (ushiftRight_one_eq_ofNat (s.reg x)) (flagByte_outRight _)⟩
  · exact ⟨_, rfl, flagAssigned_assignFlag_of_eq s x (shiftLeft_one_eq_ofNat (s.reg x)) (flagByte_outLeft _)⟩

end Sys2Proof.Machine
end

section
/-! SUPPORT. The runs of bytes of LD B, LD [I], Vx and LD Vx, [I]: when each is carried out, and what it leaves in memory. -/

namespace Sys2Proof.Machine

/-! ## The range check -/

section
variable {a n : Nat}

theorem rangeError_succ_of_le (h : a + n ≤ 4095) : rangeError a (n + 1) = none :=
  rangeError_eq_none.2 (.inr (by omega))

theorem rangeError_succ_of_gt (h : 4095 < a + n) : rangeError a (n + 1) = some (max a 4096) :=
  rangeError_eq_some.2 ⟨n.succ_ne_zero, by omega, rfl⟩

end

/-! ## Each instruction, carried out or rejected (R45); `exec_ldMemVx_of_le` stands with O36 -/

section
variable {s : State} {x : Reg}

theorem exec_ldB_of_le (h : s.i.toNat + 2 ≤ 4095) :
    exec (.ldB x) s = .next ((s.storeBytes s.i.toNat (bcdDigits (s.reg x))).advance 2) := by
  change execLdB x s = _
  rw [execLdB, rangeError_succ_of_le h]

theorem exec_ldB_of_gt (h : 4095 < s.i.toNat + 2) :
    exec (.ldB x) s = .next (s.reject (.addrRange (max s.i.toNat 4096) .write)) := by
  change execLdB x s = _
  rw [execLdB, rangeError_succ_of_gt h]

theorem exec_ldMemVx_of_gt (h : 4095 < s.i.toNat + x.val) :
    exec (.ldMemVx x) s = .next (s.reject (.addrRange (max s.i.toNat 4096) .write)) := by
  change execLdMemVx x s = _
  rw [execLdMemVx, blockSize, rangeError_succ_of_gt h]

theorem exec_ldVxMem_of_le (h : s.i.toNat + x.val ≤ 4095) :
    exec (.ldVxMem x) s = .next (((s.loadBlock s.i.toNat x).bumpI x).advance 2) := by
  change execLdVxMem x s = _
  rw [execLdVxMem, blockSize, rangeError_succ_of_le h]

theorem exec_ldVxMem_of_gt (h : 4095 < s.i.toNat + x.val) :
    exec (.ldVxMem x) s = .next (s.reject (.addrRange (max s.i.toNat 4096) .read)) := by
  change execLdVxMem x s = _
  rw [execLdVxMem, blockSize, rangeError_succ_of_gt h]

end

/-! ## What a store leaves in memory -/

section
variable (s : State) {a k : Nat} {bs : List Byte}

theorem State.readByte_storeBytes_inside (h : k < bs.length) : (s.storeBytes a bs).readByte (a + k) = bs[k] := by
  simp [State.readByte_storeBytes, h]

theorem State.readByte_storeBytes_outside (h : k < a ∨ a + bs.length ≤ k) :
    (s.storeBytes a bs).readByte k = s.readByte k := by
  rw [State.readByte_storeBytes, dif_neg (by omega)]

end

/-! ## Digits and the index -/

section
variable (b : Byte)

theorem length_bcdDigits : (bcdDigits b).length = 3 := rfl

/-- Each digit fits a byte, so none is reduced. -/
theorem map_toNat_bcdDigits :
    (bcdDigits b).map BitVec.toNat = [b.toNat / 100, b.toNat / 10 % 10, b.toNat % 10] := by
  have := b.isLt
  simp only [bcdDigits, List.map_cons, List.map_nil, BitVec.toNat_ofNat, List.cons.injEq, and_true]
  omega

end

/-- I moves past the block (R144). -/
theorem State.bumpI_i (s : State) (x : Reg) : (s.bumpI x).i = BitVec.ofNat 16 (s.i.toNat + x.val + 1) := by
  rw [Nat.add_assoc, BitVec.ofNat_add, BitVec.ofNat_toNat, BitVec.setWidth_eq]
  rfl

end Sys2Proof.Machine
end

section
/-! PROOF. O32 to O35: the block instructions, each inside memory and rejected, and a dump loaded again. -/

namespace Sys2Proof.Machine

/-- Settles O32: the three digits are the bytes stored. -/
theorem binaryCodedDecimalStore : Obligations.BinaryCodedDecimalStore := by
  unfold Obligations.BinaryCodedDecimalStore
  intro s x
  constructor
  · intro inside
    have stored (k : Nat) (hk : k < 3) :
        ((s.storeBytes s.i.toNat (bcdDigits (s.reg x))).readByte (s.i.toNat + k)).toNat =
          ((bcdDigits (s.reg x)).map BitVec.toNat)[k] := by
      exact (congrArg BitVec.toNat (s.readByte_storeBytes_inside hk)).trans (List.getElem_map _).symm
    simp only [map_toNat_bcdDigits] at stored
    have run := exec_ldB_of_le (x := x) inside
    refine ⟨_, run, stored 0 (by decide), stored 1 (by decide), stored 2 (by decide), fun a ha => ?others, rfl, ?frame⟩
    case others => exact s.readByte_storeBytes_outside (by rw [length_bcdDigits]; omega)
    case frame => simp [frame_iff]
  · intro outside
    exact ⟨_, exec_ldB_of_gt outside, rejected_reject s _⟩

/-- Settles O33. -/
theorem registerDump : Obligations.RegisterDump := by
  unfold Obligations.RegisterDump
  intro s x
  constructor
  · intro inside
    refine ⟨_, exec_ldMemVx_of_le inside, fun r hr => ?block, fun a ha => ?others, State.bumpI_i _ x, rfl, ?frame⟩
    case block => exact s.readByte_storeBytes_blockRegs s.i.toNat hr
    case others => exact s.readByte_storeBytes_outside (by rw [State.length_blockRegs]; omega)
    case frame => simp [frame_iff]
  · intro outside
    exact ⟨_, exec_ldMemVx_of_gt outside, rejected_reject s _⟩

/-- Settles O34. -/
theorem registerLoad : Obligations.RegisterLoad := by
  unfold Obligations.RegisterLoad
  intro s x
  constructor
  · intro inside
    refine ⟨_, exec_ldVxMem_of_le inside, fun r hr => ?block, fun r hr => ?above, State.bumpI_i _ x, rfl, ?frame⟩
    case block => simp [hr]
    case above => simp [hr.not_ge]
    case frame => simp [frame_iff]
  · intro outside
    exact ⟨_, exec_ldVxMem_of_gt outside, rejected_reject s _⟩

/-- Settles O35: the load reads the bytes the dump stored, and neither I nor the registers have a part in what memory reads. -/
theorem dumpThenLoadRestores : Obligations.DumpThenLoadRestores := by
  unfold Obligations.DumpThenLoadRestores
  intro s x v inside
  obtain ⟨t, dump, stored, -⟩ := (registerDump s x).1 inside
  obtain ⟨u, load, loaded, kept, -⟩ := (registerLoad { t with i := s.i, v := v } x).1 inside
  refine ⟨t, u, dump, load, fun r => ?_⟩
  split
  next hr => exact (loaded r hr).trans (stored r hr)
  next hr => exact kept r (not_le.1 hr)

end Sys2Proof.Machine
end

section
/-! PROOF. O30 and O31: what I receives, in numbers, and the write of VF under each FX1E_VF_MODE. -/

namespace Sys2Proof.Machine

/-- Five times a byte is below 2^16. -/
theorem fontAddress_toNat (b : Byte) : (b.setWidth 16 * 5).toNat = 5 * b.toNat := by
  have := b.isLt
  have five : (5 : Word).toNat = 5 := rfl
  rw [BitVec.toNat_mul, BitVec.toNat_setWidth, five]
  omega

theorem add_setWidth_eq_ofNat (i : Word) (b : Byte) :
    i + b.setWidth 16 = BitVec.ofNat 16 (i.toNat + b.toNat) := by
  rw [BitVec.ofNat_add, BitVec.ofNat_toNat, BitVec.ofNat_toNat, BitVec.setWidth_eq]

theorem indexOverflow_iff (i : Word) (b : Byte) : indexOverflow i b = true ↔ 0xFFF < i.toNat + b.toNat :=
  decide_eq_true_iff

theorem State.indexFlag_frame (s : State) (o : Bool) : Frame [.v] s (s.indexFlag o) := by
  obtain h | ⟨f, h⟩ := s.indexFlag_cases o
  · rw [h]; exact .refl _ s
  · rw [h]; simp [frame_iff]

section
variable {s : State} (o : Bool)

theorem State.indexFlag_of_off (h : s.params.fx1eVfMode = .off) : s.indexFlag o = s := by
  rw [State.indexFlag, h]

theorem State.indexFlag_of_setOnly (h : s.params.fx1eVfMode = .setOnly) :
    s.indexFlag o = if o then s.setFlag true else s := by
  rw [State.indexFlag, h]

theorem State.indexFlag_of_setClear (h : s.params.fx1eVfMode = .setClear) : s.indexFlag o = s.setFlag o := by
  rw [State.indexFlag, h]

end

/-- Settles O30. -/
theorem indexLoads : Obligations.IndexLoads :=
  fun s nnn x =>
    ⟨⟨_, rfl, addrOf_toNat nnn, rfl, (Effect.loadedI nnn).frame⟩,
      ⟨_, rfl, fontAddress_toNat (s.reg x), rfl, (Effect.loadedFont x).frame⟩⟩

/-- Settles O31: the flag write touches neither I nor pc, and each mode writes VF in its own way. -/
theorem indexAdd : Obligations.IndexAdd := by
  unfold Obligations.IndexAdd
  intro s x
  have effect := effect_of_exec (s := s) (i := .addI x) rfl
  have flag := (s.setI (s.i + (s.reg x).setWidth 16)).indexFlag_frame (indexOverflow s.i (s.reg x))
  refine ⟨_, rfl, ?index, ?vf, fun r hr => effect.reg_kept ?kept, ?pc, effect.frame⟩
  case index => exact (flag .i (by decide)).trans (add_setWidth_eq_ofNat _ _)
  case pc => exact congrArg (· + 2) (flag .pc (by decide))
  case kept => simpa [mayWriteReg] using hr
  case vf =>
    cases mode : s.params.fx1eVfMode with
    | off => simp [State.indexFlag_of_off, mode]
    | setOnly => simp [State.indexFlag_of_setOnly, mode, indexOverflow_iff, apply_ite (State.reg · VF)]
    | setClear => simp [State.indexFlag_of_setClear, mode, flagByte, indexOverflow_iff]

end Sys2Proof.Machine
end

section
/-! PROOF. O38: RND is `assign` of a masked byte, and a masked byte has no bit outside its mask. -/

namespace Sys2Proof.Machine

theorem masked_and_not_mask (b mask : Byte) : b &&& mask &&& ~~~mask = 0 := by
  rw [BitVec.and_assoc, BitVec.and_not_self]
  exact BitVec.and_zero

/-- Settles O38. -/
theorem randomIsMasked : Obligations.RandomIsMasked := by
  unfold Obligations.RandomIsMasked
  intro s x nn
  obtain ⟨value, -⟩ := assigned_assign s x (s.inputs.rnd &&& nn)
  refine ⟨s.assign x (s.inputs.rnd &&& nn), rfl, assigned_assign s x _, ?masked⟩
  case masked => rw [value, masked_and_not_mask]

end Sys2Proof.Machine
end

section
/-! SUPPORT. Drawing as a set of pixels inverted at once: one set bit, a row, a sprite (45_display.md). -/

namespace Sys2Proof.Machine

open Sys2Proof.Config

/-! ## Where a position lands -/

section
variable {m : DrawEdge} {px py : Nat} {x : Fin 64} {y : Fin 32}

theorem place_wrap_eq_some : place .wrap px py = some (x, y) ↔ x.val = px % 64 ∧ y.val = py % 32 := by
  simp [place, Fin.ext_iff, eq_comm]

theorem place_clip_eq_some : place .clip px py = some (x, y) ↔ x.val = px ∧ y.val = py := by
  have hx := x.isLt
  have hy := y.isLt
  simp only [place, Option.dite_none_right_eq_some, Option.some.injEq, Prod.mk.injEq, Fin.ext_iff]
  constructor
  · rintro ⟨-, h⟩; omega
  · intro h; exact ⟨by omega, by omega⟩

/-- Under either DRAW_EDGE the pixel has the position's coordinates modulo the screen, so positions less than a screen apart
never share a pixel. -/
theorem place_mod (h : place m px py = some (x, y)) : x.val = px % 64 ∧ y.val = py % 32 := by
  cases m with
  | wrap => exact place_wrap_eq_some.1 h
  | clip => rw [place_clip_eq_some] at h; omega

end

/-! ## Canvases that differ by inverted pixels -/

/-- `d` is `c` with the pixels of `P`, and no others, inverted, and with a collision added if one of them was set. -/
structure Canvas.Inverts (P : Set (Fin 64 × Fin 32)) (c d : Canvas) : Prop where
  inside : ∀ x y, (x, y) ∈ P → d.fb[x][y] = !c.fb[x][y]
  outside : ∀ x y, (x, y) ∉ P → d.fb[x][y] = c.fb[x][y]
  hit : d.hit = true ↔ c.hit = true ∨ ∃ x y, (x, y) ∈ P ∧ c.fb[x][y] = true

section
variable {P Q : Set (Fin 64 × Fin 32)} {c d e : Canvas}

theorem Canvas.Inverts.refl (c : Canvas) : Canvas.Inverts ∅ c c :=
  ⟨fun _ _ h => h.elim, fun _ _ _ => rfl, by simp⟩

/-- Disjoint sets of pixels are inverted one after the other as they are at once: the second meets none of the first's work. -/
theorem Canvas.Inverts.union (h : Canvas.Inverts P c d) (h' : Canvas.Inverts Q d e) (disj : Disjoint P Q) :
    Canvas.Inverts (P ∪ Q) c e := by
  have untouched : ∀ x y, (x, y) ∈ Q → d.fb[x][y] = c.fb[x][y] :=
    fun x y hQ => h.outside x y (disj.notMem_of_mem_right hQ)
  refine ⟨fun x y hz => ?inside, fun x y hz => ?outside, ?hit⟩
  case inside =>
    rcases hz with hP | hQ
    · rw [h'.outside x y (disj.notMem_of_mem_left hP), h.inside x y hP]
    · rw [h'.inside x y hQ, untouched x y hQ]
  case outside =>
    rw [Set.mem_union, not_or] at hz
    rw [h'.outside x y hz.2, h.outside x y hz.1]
  case hit =>
    have later : (∃ x y, (x, y) ∈ Q ∧ d.fb[x][y] = true) ↔ ∃ x y, (x, y) ∈ Q ∧ c.fb[x][y] = true :=
      exists₂_congr fun x y => and_congr_right fun hQ => by rw [untouched x y hQ]
    rw [h'.hit, h.hit, later, or_assoc]
    simp only [Set.mem_union, or_and_right, exists_or]

/-- What one set bit does. -/
theorem Canvas.inverts_plot (m : DrawEdge) (px py : Nat) (c : Canvas) :
    Canvas.Inverts {z | place m px py = some z} c (c.plot m px py) := by
  refine ⟨fun x y (hz : place m px py = some (x, y)) => ?inside,
    fun x y (hz : place m px py ≠ some (x, y)) => ?outside, ?hit⟩
  case inside => rw [Canvas.plot_pixel, decide_eq_true hz, Bool.bne_true]
  case outside => rw [Canvas.plot_pixel, decide_eq_false hz, Bool.bne_false]
  case hit =>
    rw [Canvas.plot_hit, Bool.or_eq_true]
    cases place m px py with
    | none => simp
    | some z => simp [Prod.ext_iff]

end

/-! ## A row of a sprite -/

/-- The pixel that the bit in column `k` of a sprite's row lands on, if it is set. -/
def columnPixels (m : DrawEdge) (x0 py : Nat) (b : Byte) (k : Nat) : Set (Fin 64 × Fin 32) :=
  {z | b.getLsbD (7 - k) = true ∧ place m (x0 + k) py = some z}

/-- The pixels that the set bits of the leftmost `k` columns of a sprite's row land on. -/
def rowPixels (m : DrawEdge) (x0 py : Nat) (b : Byte) (k : Nat) : Set (Fin 64 × Fin 32) :=
  {z | ∃ c < k, z ∈ columnPixels m x0 py b c}

section
variable {m : DrawEdge} {x0 py k : Nat} {b : Byte} {x : Fin 64} {y : Fin 32}

theorem rowPixels_zero : rowPixels m x0 py b 0 = ∅ := by
  simp [rowPixels]

theorem rowPixels_succ : rowPixels m x0 py b (k + 1) = rowPixels m x0 py b k ∪ columnPixels m x0 py b k :=
  Set.ext fun _ => Nat.exists_lt_succ_right

theorem row_of_mem_rowPixels (h : (x, y) ∈ rowPixels m x0 py b k) : y.val = py % 32 := by
  obtain ⟨c, -, -, hc⟩ := h
  exact (place_mod hc).2

/-- Eight columns are less than the screen's width, so each lands on pixels of its own. -/
theorem rowPixels_disjoint_column (hk : k < 8) :
    Disjoint (rowPixels m x0 py b k) (columnPixels m x0 py b k) := by
  rw [Set.disjoint_left]
  rintro ⟨x, y⟩ ⟨c, hc, -, left⟩ ⟨-, right⟩
  have hl := (place_mod left).1
  have hr := (place_mod right).1
  omega

/-- One column of a row: its bit is plotted if it is set. -/
theorem Canvas.inverts_column (m : DrawEdge) (x0 py k : Nat) (b : Byte) (c : Canvas) :
    Canvas.Inverts (columnPixels m x0 py b k) c (if b.getLsbD (7 - k) then c.plot m (x0 + k) py else c) := by
  unfold columnPixels
  cases b.getLsbD (7 - k) with
  | false => simpa using Canvas.Inverts.refl c
  | true => simpa using Canvas.inverts_plot m (x0 + k) py c

theorem Canvas.inverts_columns (m : DrawEdge) (x0 py : Nat) (b : Byte) (c : Canvas) (hk : k ≤ 8) :
    Canvas.Inverts (rowPixels m x0 py b k) c
      ((List.range k).foldl (fun c k => if b.getLsbD (7 - k) then c.plot m (x0 + k) py else c) c) := by
  induction k with
  | zero => rw [rowPixels_zero]; exact .refl c
  | succ k ih =>
    rw [List.range_succ, List.foldl_append, rowPixels_succ]
    exact (ih (by omega)).union (Canvas.inverts_column m x0 py k b _) (rowPixels_disjoint_column hk)

theorem Canvas.inverts_drawRow (m : DrawEdge) (x0 py : Nat) (b : Byte) (c : Canvas) :
    Canvas.Inverts (rowPixels m x0 py b 8) c (c.drawRow m x0 py b) :=
  Canvas.inverts_columns m x0 py b c le_rfl

end

/-! ## A sprite -/

/-- The pixels that the set bits of a sprite land on, from row py downwards. -/
def spritePixels (m : DrawEdge) (x0 : Nat) : Nat → List Byte → Set (Fin 64 × Fin 32)
  | _, [] => ∅
  | py, b :: bs => rowPixels m x0 py b 8 ∪ spritePixels m x0 (py + 1) bs

section
variable {m : DrawEdge} {x0 py : Nat} {b : Byte} {bs : List Byte} {z : Fin 64 × Fin 32}

theorem mem_spritePixels :
    z ∈ spritePixels m x0 py bs ↔ ∃ r, ∃ h : r < bs.length, z ∈ rowPixels m x0 (py + r) bs[r] 8 := by
  induction bs generalizing py with
  | nil => simp [spritePixels]
  | cons b bs ih =>
    rw [spritePixels, Set.mem_union, ih]
    constructor
    · rintro (h | ⟨r, hr, h⟩)
      · exact ⟨0, Nat.succ_pos _, h⟩
      · exact ⟨r + 1, Nat.succ_lt_succ hr, by rwa [Nat.add_assoc, Nat.add_comm 1] at h⟩
    · rintro ⟨r, hr, h⟩
      cases r with
      | zero => exact .inl h
      | succ r => exact .inr ⟨r, Nat.lt_of_succ_lt_succ hr, by rwa [Nat.add_assoc, Nat.add_comm 1]⟩

/-- A sprite no higher than the screen has each row on pixels of its own. -/
theorem rowPixels_disjoint_spritePixels (fits : bs.length < 32) :
    Disjoint (rowPixels m x0 py b 8) (spritePixels m x0 (py + 1) bs) := by
  rw [Set.disjoint_left]
  rintro ⟨x, y⟩ first rest
  obtain ⟨r, hr, later⟩ := mem_spritePixels.1 rest
  have hfirst := row_of_mem_rowPixels first
  have hlater := row_of_mem_rowPixels later
  omega

theorem Canvas.inverts_drawRows (m : DrawEdge) (x0 py : Nat) (bs : List Byte) (c : Canvas) (fits : bs.length ≤ 32) :
    Canvas.Inverts (spritePixels m x0 py bs) c (Canvas.drawRows m x0 py bs c) := by
  induction bs generalizing py c with
  | nil => exact .refl c
  | cons b bs ih =>
    rw [List.length_cons] at fits
    exact (Canvas.inverts_drawRow m x0 py b c).union (ih (py + 1) _ (by omega)) (rowPixels_disjoint_spritePixels fits)

end

/-- The pixels of a sprite in memory are those `Covered` names. -/
theorem mem_spritePixels_iff_covered {s : State} {x0 y0 n : Nat} {px : Fin 64} {py : Fin 32} :
    (px, py) ∈ spritePixels s.params.drawEdge x0 y0 (s.readBytes s.i.toNat n) ↔ Covered s x0 y0 n px py := by
  rw [mem_spritePixels, Covered]
  simp only [State.length_readBytes, State.getElem_readBytes, exists_prop, rowPixels, columnPixels, Set.mem_ofPred_eq]
  refine exists_congr fun r => ?_
  rw [← exists_and_left]
  refine exists_congr fun c => ?_
  cases s.params.drawEdge with
  | wrap => rw [place_wrap_eq_some]
  | clip => rw [place_clip_eq_some]

/-- A sprite lands on the same pixels in two states that agree on I, memory and DRAW_EDGE. -/
theorem covered_congr {s t : State} (hi : t.i = s.i) (hm : ∀ a, t.readByte a = s.readByte a) (hp : t.params = s.params)
    (x0 y0 n : Nat) (px : Fin 64) (py : Fin 32) : Covered t x0 y0 n px py ↔ Covered s x0 y0 n px py := by
  simp only [Covered, hi, hm, hp]

/-! ## The state a display instruction leaves -/

theorem flagByte_eq_one_iff (f : Bool) : flagByte f = 1 ↔ f = true := by
  cases f <;> decide

/-- `s` showing a canvas: its picture, the flag from its collision, FR set, and pc gone on. -/
def State.shown (s : State) (c : Canvas) : State := ({ s with fb := c.fb, fr := true }.setFlag c.hit).advance 2

section
variable (s : State) (c : Canvas)

@[simp] theorem State.shown_fr : (s.shown c).fr = true := rfl
@[simp] theorem State.shown_pc : (s.shown c).pc = s.pc + 2 := rfl
@[simp] theorem State.shown_out : (s.shown c).out = s.out := rfl
@[simp] theorem State.pixel_shown (px : Fin 64) (py : Fin 32) : (s.shown c).pixel px py = c.fb[px][py] := rfl

@[simp] theorem State.reg_VF_shown : (s.shown c).reg VF = flagByte c.hit := by
  simp [State.shown]

theorem State.shown_regsKept : RegsKept [VF] s (s.shown c) := by
  intro r hr
  have hne : VF ≠ r := fun h => hr (List.mem_singleton.2 h.symm)
  simp only [State.shown, State.reg_advance, State.setFlag_eq, State.reg_setReg, if_neg hne]
  rfl

theorem State.shown_frame : Frame [.fb, .v, .fr, .pc] s (s.shown c) := by
  simp [frame_iff, State.shown, State.readByte]

end

theorem exec_cls (s : State) : exec .cls s = .next (s.shown ⟨blankScreen, true⟩) := rfl

section
variable {s : State} {n : Fin 16}

/-- A sprite inside memory is drawn (R156). -/
theorem exec_drw_of_le (x y : Reg) (h : n.val = 0 ∨ s.i.toNat + n.val - 1 ≤ 4095) :
    exec (.drw x y n) s = .next (s.shown (s.sprite x y (s.readBytes s.i.toNat n.val))) := by
  change execDrw x y n s = _
  rw [execDrw, rangeError_eq_none.2 (by omega)]
  rfl

/-- A sprite that leaves memory is rejected as a whole (R45). -/
theorem exec_drw_of_gt (x y : Reg) (hn : 0 < n.val) (h : 4095 < s.i.toNat + n.val - 1) :
    exec (.drw x y n) s = .next (s.reject (.addrRange (max s.i.toNat 4096) .read)) := by
  change execDrw x y n s = _
  rw [execDrw, rangeError_eq_some.2 ⟨by omega, by omega, rfl⟩]

end

/-- What drawing a sprite of at most 15 rows does to FB. -/
theorem State.inverts_sprite (s : State) (x y : Reg) (n : Fin 16) :
    Canvas.Inverts {z | Covered s (s.reg x).toNat (s.reg y).toNat n.val z.1 z.2} ⟨s.fb, false⟩
      (s.sprite x y (s.readBytes s.i.toNat n.val)) := by
  have pixels : {z | Covered s (s.reg x).toNat (s.reg y).toNat n.val z.1 z.2} =
      spritePixels s.params.drawEdge (s.reg x).toNat (s.reg y).toNat (s.readBytes s.i.toNat n.val) :=
    Set.ext fun _ => mem_spritePixels_iff_covered.symm
  rw [pixels]
  exact Canvas.inverts_drawRows _ _ _ _ _ (by rw [State.length_readBytes]; omega)

end Sys2Proof.Machine
end

section
/-! PROOF. O42 to O45: the screen cleared, a sprite drawn and rejected, and a sprite drawn twice. -/

namespace Sys2Proof.Machine

/-- Settles O42: FR is set, so frame_ready comes before anything else the iteration emits. -/
theorem clearScreen : Obligations.ClearScreen := by
  unfold Obligations.ClearScreen
  intro s
  refine ⟨_, exec_cls s, fun px py => ?blank, s.reg_VF_shown _, rfl, s.shown_regsKept _, rfl, s.shown_frame _, ?first⟩
  case blank => simp [blankScreen]
  case first =>
    rw [State.afterCycle_out, State.shown_fr, if_pos rfl]
    exact ⟨_, rfl⟩

/-- Settles O44. -/
theorem drawOutsideMemory : Obligations.DrawOutsideMemory :=
  fun s x y _ hn outside => ⟨_, exec_drw_of_gt x y hn outside, rejected_reject s _⟩

/-- Settles O43: the sprite's pixels are inverted at once, and VF is the collision. -/
theorem drawXorsTheSprite : Obligations.DrawXorsTheSprite := by
  unfold Obligations.DrawXorsTheSprite
  intro s x y n inside
  have drawing := s.inverts_sprite x y n
  refine ⟨_, exec_drw_of_le x y inside, fun px py => ⟨drawing.inside px py, drawing.outside px py⟩, ?flag, ?collision, rfl,
    s.shown_regsKept _, rfl, s.shown_frame _⟩
  case flag => rw [State.reg_VF_shown]; exact flagByte_eq_zero_or_one _
  case collision =>
    rw [State.reg_VF_shown, flagByte_eq_one_iff, drawing.hit]
    exact or_iff_right Bool.false_ne_true

/-- Settles O45: the second draw inverts the pixels the first one did, and one it set is one the second draw finds set. -/
theorem drawingTwiceRestores : Obligations.DrawingTwiceRestores := by
  unfold Obligations.DrawingTwiceRestores
  intro s t x y n inside first hx hy
  obtain ⟨t', hfirst, pixels, -, -, -, -, -, frame⟩ := drawXorsTheSprite s x y n inside
  obtain rfl : t' = t := by simpa [first] using hfirst.symm
  have hi : t'.i = s.i := frame .i (by decide)
  have same := covered_congr hi (frame .mem (by decide)) (frame .params (by decide)) (s.reg x).toNat (s.reg y).toNat n.val
  obtain ⟨u, second, pixels', -, collision, -⟩ := drawXorsTheSprite t' x y n (by rwa [hi])
  simp only [hx, hy, same] at pixels' collision
  refine ⟨u, second, fun px py => ?restored, ?collides⟩
  case restored =>
    by_cases covered : Covered s (s.reg x).toNat (s.reg y).toNat n.val px py
    · rw [(pixels' px py).1 covered, (pixels px py).1 covered, Bool.not_not]
    · rw [(pixels' px py).2 covered, (pixels px py).2 covered]
  case collides =>
    rintro ⟨px, py, off, on⟩
    have covered : Covered s (s.reg x).toNat (s.reg y).toNat n.val px py := by
      by_contra h
      rw [(pixels px py).2 h, off] at on
      exact Bool.false_ne_true on
    exact collision.2 ⟨px, py, covered, on⟩

end Sys2Proof.Machine
end

section
/-! PROOF. O39: a timer read is `assign` of DT, and a timer write is an effect whose frame holds its own timer and pc. -/

namespace Sys2Proof.Machine

/-- Settles O39: no frame here lists the notifications, so none of the three emits a tone. -/
theorem timerAccess : Obligations.TimerAccess := by
  unfold Obligations.TimerAccess
  intro s x
  refine ⟨⟨s.assign x s.dt, rfl, ?readDt⟩, ⟨_, rfl, ?writeDt⟩, ⟨_, rfl, ?writeSt⟩⟩
  case readDt => exact assigned_assign s x s.dt
  case writeDt => exact ⟨State.advance_dt _ _, State.advance_pc _ _, (Effect.setDt x).frame⟩
  case writeSt => exact ⟨State.advance_st _ _, State.advance_pc _ _, (Effect.setSt x).frame⟩

end Sys2Proof.Machine
end

section
/-! PROOF. O40: which of the pressed keys is picked, and LD Vx, K with a pick and without one. -/

namespace Sys2Proof.Machine

/-! ## The pick from a list of keys in rising order -/

section
variable {d : Nat} {ks : List (Fin 16)} {k l : Fin 16}

theorem pickKey_lowest_le (rising : ks.SortedLE) (h : pickKey .lowest d ks = some k) (hl : l ∈ ks) : k ≤ l := by
  rw [← List.head_of_mem_head? h]
  exact rising.pairwise.rel_head hl

theorem le_pickKey_highest (rising : ks.SortedLE) (h : pickKey .highest d ks = some k) (hl : l ∈ ks) : l ≤ k := by
  rw [← List.getLast_of_mem_getLast? h]
  exact rising.pairwise.rel_getLast hl

/-- Under `any` the draw of a key's place picks that key. -/
theorem exists_pickKey_any (hk : k ∈ ks) : ∃ d, pickKey .any d ks = some k := by
  obtain ⟨d, hd, rfl⟩ := List.mem_iff_getElem.1 hk
  refine ⟨d, ?_⟩
  rw [pickKey, Nat.mod_eq_of_lt hd, List.getElem?_eq_getElem]

end

/-! ## The key picked in a state, and the instruction on it -/

/-- The key LD Vx, K takes in this state, if one is pressed (R170). -/
def State.pickedKey (s : State) : Option (Fin 16) := pickKey s.params.keywaitPick s.inputs.pick s.pressedKeys

section
variable {s : State} {k l : Fin 16}

theorem State.sortedLE_pressedKeys (s : State) : s.pressedKeys.SortedLE :=
  ((List.sortedLT_finRange 16).pairwise.filter _).sortedLT.sortedLE

theorem State.pickedKey_eq_none : s.pickedKey = none ↔ ∀ k : Fin 16, s.key[k] = 0 := by
  simp only [State.pickedKey, pickKey_eq_none, List.eq_nil_iff_forall_not_mem, State.mem_pressedKeys, not_not]

theorem State.pickedKey_pressed (h : s.pickedKey = some k) : s.key[k] ≠ 0 :=
  (s.mem_pressedKeys k).1 (pickKey_mem h)

theorem State.pickedKey_le (lowest : s.params.keywaitPick = .lowest) (h : s.pickedKey = some k) (hl : s.key[l] ≠ 0) :
    k ≤ l := by
  rw [State.pickedKey, lowest] at h
  exact pickKey_lowest_le s.sortedLE_pressedKeys h ((s.mem_pressedKeys l).2 hl)

theorem State.le_pickedKey (highest : s.params.keywaitPick = .highest) (h : s.pickedKey = some k) (hl : s.key[l] ≠ 0) :
    l ≤ k := by
  rw [State.pickedKey, highest] at h
  exact le_pickKey_highest s.sortedLE_pressedKeys h ((s.mem_pressedKeys l).2 hl)

theorem State.exists_pickedKey_any (any : s.params.keywaitPick = .any) (hk : s.key[k] ≠ 0) :
    ∃ d, State.pickedKey { s with inputs := { s.inputs with pick := d } } = some k := by
  simp only [State.pickedKey, any]
  exact exists_pickKey_any ((s.mem_pressedKeys k).2 hk)

theorem exec_ldVxK_of_none (x : Reg) (h : s.pickedKey = none) : exec (.ldVxK x) s = .next s := by
  change execLdVxK x s = _
  rw [execLdVxK, ← State.pickedKey, h]

theorem exec_ldVxK_of_some (x : Reg) (h : s.pickedKey = some k) :
    exec (.ldVxK x) s = .next (s.assign x (BitVec.ofNat 8 k.val)) := by
  change execLdVxK x s = _
  rw [execLdVxK, ← State.pickedKey, h]
  rfl

end

/-- Settles O40: no key is picked exactly when none is pressed, and the list picked from holds the pressed keys in rising
order. -/
theorem keyWait : Obligations.KeyWait := by
  unfold Obligations.KeyWait
  intro s x
  refine ⟨fun released => ?waits, fun j pressed => ?picks, fun any k pressed => ?reachable⟩
  case waits => exact ⟨s, exec_ldVxK_of_none x (State.pickedKey_eq_none.2 released), Frame.refl [] s⟩
  case picks =>
    obtain ⟨k, hk⟩ := Option.ne_none_iff_exists'.1 fun none => pressed (State.pickedKey_eq_none.1 none j)
    exact ⟨_, k, exec_ldVxK_of_some x hk, State.pickedKey_pressed hk, assigned_assign s x _,
      fun lowest _ below => by_contra fun hl => below.not_ge (State.pickedKey_le lowest hk hl),
      fun highest _ above => by_contra fun hl => above.not_ge (State.le_pickedKey highest hk hl)⟩
  case reachable =>
    obtain ⟨d, hd⟩ := State.exists_pickedKey_any any pressed
    obtain ⟨value, -⟩ := assigned_assign { s with inputs := { s.inputs with pick := d } } x (BitVec.ofNat 8 k.val)
    exact ⟨d, _, exec_ldVxK_of_some x hd, value⟩

end Sys2Proof.Machine
end

section
/-! SUPPORT. What the cycle answers in each of its cases, and the step of a machine that runs or is Paused. -/

namespace Sys2Proof.Machine

section
variable {s t : State} {op : Word}

theorem cycle_of_badFetch {bad : Nat} (hf : fetch s = .error bad) :
    cycle s = .next (s.raise (.addrRange bad .fetch)) := by
  rw [cycle, hf]

theorem cycle_of_unknown {r : Reject} (hf : fetch s = .ok op) (hd : decodeWord s.params.strictLowNibble op = .error r) :
    cycle s = .next (s.reject (.unknownOpcode op)) := by
  simp only [cycle, hf, hd]
  rfl

theorem cycle_of_decoded {i : Instr} (hf : fetch s = .ok op) (hd : decodeWord s.params.strictLowNibble op = .ok i) :
    cycle s = exec i s := by
  simp only [cycle, hf, hd]

theorem step_of_cycle (h : s.runs) (hc : cycle s.loaded = .next t) : step s = .next t.afterCycle := by
  rw [step_eq_cycle h, hc]
  rfl

theorem step_of_paused (hd : s.dbg = .paused) (hh : ∀ e rest, s.env ≠ .host e :: rest) : step s = .next s.loaded := by
  rw [step_eq_iteration hh, iteration, State.loaded_dbg, if_pos hd]

end

end Sys2Proof.Machine
end

section
/-! PROOF. O6 and O8: reset with the empty image, and a reset that loads nothing. -/

namespace Sys2Proof.Machine

/-- Settles O6: memory lists nothing, so it reads as FONT and zeros. -/
theorem resetValues : Obligations.ResetValues :=
  ⟨State.reset.registersReset_fresh, rfl, rfl, Memory.unlisted_font _, fun _ font _ => Memory.unlisted_of_ge _ font⟩

/-- A reset without a usable image: fresh but for the report (R207). -/
theorem State.hostReset_of_unusable (s : State) {image : Option (List Byte)}
    (h : ∀ bytes, image = some bytes → 3584 < bytes.length) :
    s.hostReset image = s.fresh.raise (.loadFail ((image.map List.length).getD 0)) := by
  cases image with
  | none => rfl
  | some bytes => exact if_neg (h bytes rfl).not_ge

/-- Settles O8: the report touches no register, and memory is left as a fresh one. -/
theorem resetWithoutUsableImage : Obligations.ResetWithoutUsableImage := by
  unfold Obligations.ResetWithoutUsableImage
  intro s image rest henv unusable
  refine ⟨State.raise (State.fresh { s with env := rest }) (.loadFail ((image.map List.length).getD 0)), ?step, rfl, ?esr,
    ?font, ?zeros, State.registersReset_fresh { s with env := rest }, rfl, rfl⟩
  case step =>
    rw [step_eq_host henv]
    exact congrArg Host.Outcome.next (State.hostReset_of_unusable _ unusable)
  case esr => exact (by decide : (0 : BitVec 8) ||| BitVec.twoPow 8 6 = 0x40)
  case font => exact Memory.unlisted_font s.params
  case zeros => exact fun a font _ => Memory.unlisted_of_ge s.params font

end Sys2Proof.Machine
end

section
/-! PROOF. O9 and O10: the debug signals write DBG alone, the key events one entry of KEY. -/

namespace Sys2Proof.Machine

open Sys2Proof.Config

theorem Dbg.pause_eq (d : Dbg) : Dbg.pause d = if d = .running then .paused else d := by cases d <;> rfl
theorem Dbg.cont_eq (d : Dbg) : Dbg.cont d = if d = .paused then .running else d := by cases d <;> rfl
theorem Dbg.step_eq (d : Dbg) : Dbg.step d = if d = .paused then .stepPending else d := by cases d <;> rfl

theorem State.scheduled_frame (s : State) (d : Dbg) (env : List EnvEvent) : Frame [.dbg, .env] s (s.scheduled d env) := by
  simp [frame_iff, State.scheduled, State.readByte]

/-- Settles O9: each signal leaves the state with a DBG of its own and the rest of the schedule. -/
theorem debugSignals : Obligations.DebugSignals := by
  unfold Obligations.DebugSignals
  intro s rest
  refine ⟨fun signal => ?pause, fun signal => ?cont, fun signal => ?step⟩
  case pause => exact ⟨_, step_eq_host signal, rfl, s.scheduled_frame _ rest, Dbg.pause_eq s.dbg⟩
  case cont => exact ⟨_, step_eq_host signal, rfl, s.scheduled_frame _ rest, Dbg.cont_eq s.dbg⟩
  case step => exact ⟨_, step_eq_host signal, rfl, s.scheduled_frame _ rest, Dbg.step_eq s.dbg⟩

section
variable (s : State) (k value : Nat)

theorem State.getElem_key_setKey (j : Fin 16) : (s.setKey k value).key[j] = if j.val = k then value else s.key[j] := by
  unfold State.setKey
  split
  · simp only [Fin.getElem_fin, Vector.getElem_set, eq_comm]
  · rw [if_neg (by omega)]

theorem State.pressed_setKey {j : Fin 16} (h : j.val = k) : (s.setKey k value).pressed j = (value != 0) := by
  rw [State.pressed, State.getElem_key_setKey, if_pos h]

/-- A key event at the head of the schedule: one entry of KEY takes the value, and the schedule goes on. -/
theorem State.setKey_rest (rest : List EnvEvent) :
    (State.setKey { s with env := rest } k value).env = rest ∧
      Frame [.key, .env] s (State.setKey { s with env := rest } k value) := by
  unfold State.setKey
  split <;> simp [frame_iff, State.readByte]

end

/-- Settles O10: the marker is not 0, and no entry has an index above 15. -/
theorem keyEvents : Obligations.KeyEvents := by
  unfold Obligations.KeyEvents
  intro s k rest
  have entry := State.getElem_key_setKey { s with env := rest } k
  have pressed := fun value (j : Fin 16) => State.pressed_setKey { s with env := rest } k value (j := j)
  refine ⟨fun event => ?set, fun event => ?clear⟩
  case set =>
    obtain ⟨env, frame⟩ := s.setKey_rest k s.params.keyPressedMarker.val rest
    exact ⟨_, step_eq_host event, env, frame, entry _, fun j hj =>
      (pressed _ j hj).trans (bne_iff_ne.2 s.params.keyPressedMarker.nonzero.ne')⟩
  case clear =>
    obtain ⟨env, frame⟩ := s.setKey_rest k 0 rest
    exact ⟨_, step_eq_host event, env, frame, entry 0, pressed 0⟩

end Sys2Proof.Machine
end

section
/-! PROOF. O11 to O15: one iteration, Paused or in each case of its cycle, and what follows the cycle. -/

namespace Sys2Proof.Machine

/-- Settles O11. -/
theorem pausedIterationIdles : Obligations.PausedIterationIdles :=
  fun s paused noHost => ⟨s.loaded, step_of_paused paused noHost, s.loaded_frame⟩

theorem decodeWord_of_decode {strict : Bool} {hi lo : Byte} {rest left : List Byte} {i : Instr}
    (h : decode strict (hi :: lo :: rest) = .ok (i, left)) : decodeWord strict (opcodeOf hi lo) = .ok i := by
  simp only [decode] at h
  cases hd : decodeWord strict (opcodeOf hi lo) with
  | ok j => simp_all
  | error r => simp [hd] at h

section
variable {s : State}

/-- With two bytes at pc, the loaded state fetches the opcode they make. -/
theorem fetch_loaded_of_le (h : s.pc.toNat + 2 ≤ 4096) :
    fetch s.loaded = .ok (opcodeOf (s.readByte s.pc.toNat) (s.readByte (s.pc.toNat + 1))) := by
  rw [fetch_loaded]
  exact fetch_eq_ok.2 ⟨h, rfl⟩

/-- Above 4094 it does not, and the lowest address that does not exist is pc itself, or 4096 with pc on the last byte. -/
theorem fetch_loaded_of_gt (h : 4094 < s.pc.toNat) :
    fetch s.loaded = .error (if s.pc.toNat = 4095 then 4096 else s.pc.toNat) := by
  rw [fetch_loaded]
  exact fetch_eq_error.2 ⟨by omega, by split <;> omega⟩

end

/-- Settles O12: the two bytes decoded are those the cycle fetches. -/
theorem stepRunsTheDecodedInstruction : Obligations.StepRunsTheDecodedInstruction := by
  unfold Obligations.StepRunsTheDecodedInstruction
  intro s t i runs inside decoded executed
  rw [← s.loaded_params] at decoded
  exact step_of_cycle runs
    ((cycle_of_decoded (fetch_loaded_of_le inside) (decodeWord_of_decode decoded)).trans executed)

/-- Settles O13: each field is what the one check that writes it leaves. -/
theorem afterCycleEffects : Obligations.AfterCycleEffects := by
  unfold Obligations.AfterCycleEffects
  intro t
  have counted (b : Byte) : (if t.inputs.tickDue = true then countDown b else b).toNat =
      if t.inputs.tickDue = true then b.toNat - 1 else b.toNat := by
    split
    · exact countDown_toNat b
    · rfl
  refine ⟨rfl, counted t.dt, counted t.st, rfl, ?out, ?frame⟩
  case out => simp only [State.afterCycle_out, List.append_assoc]
  case frame => simp [frame_iff, State.readByte]

/-- Settles O14: the cycle raises the condition and is over. -/
theorem fetchOutsideMemory : Obligations.FetchOutsideMemory := by
  unfold Obligations.FetchOutsideMemory
  intro s runs outside
  refine ⟨_, step_of_cycle runs (cycle_of_badFetch (fetch_loaded_of_gt outside)), raised_raise s.loaded _, ?frame⟩
  case frame => simp [frame_iff]

/-- Settles O15: the cycle rejects the opcode. -/
theorem unknownOpcodeStep : Obligations.UnknownOpcodeStep := by
  unfold Obligations.UnknownOpcodeStep
  intro s runs inside unknown
  rw [← s.loaded_params] at unknown
  exact ⟨_, step_of_cycle runs (cycle_of_unknown (fetch_loaded_of_le inside) unknown), rejected_reject s.loaded _⟩

end Sys2Proof.Machine
end

section
/-! PROOF. O16, O41 and O49: every instruction answers a next state, with one report of its own kind or none. -/

namespace Sys2Proof.Machine

/-- Settles O16: each effect an instruction or a step can have is a next state. -/
theorem nothingTerminatesTheMachine : Obligations.NothingTerminatesTheMachine := by
  constructor
  · intro i s
    obtain ⟨t, executed, -⟩ := exec_effect i s
    exact ⟨t, executed⟩
  · intro s
    obtain ⟨t, stepped, -⟩ := step_effect s
    exact ⟨t, stepped⟩

/-- Settles O49. -/
theorem atMostOneReportPerInstruction : Obligations.AtMostOneReportPerInstruction :=
  fun _ _ _ executed => (effect_of_exec executed).report

/-- Settles O41: the opcode 0nnn is nnn as a 16-bit word. -/
theorem legacyCallIsReported : Obligations.LegacyCallIsReported := by
  unfold Obligations.LegacyCallIsReported
  intro s nnn
  have opcode : addrOf nnn = BitVec.ofNat 16 nnn.toNat := (BitVec.ofNat_toNat 16 nnn).symm
  rw [← opcode]
  exact ⟨_, rfl, rejected_reject s _⟩

end Sys2Proof.Machine
end

section
/-! PROOF. O52 and O53: a settled run repeats one jump, so each iteration is what follows the cycle. -/

namespace Sys2Proof.Machine

open Sys2Proof.Config

section
variable {s t : State} {a : Addr12}

/-- Whether a run has settled depends on pc, memory and nothing else. -/
theorem State.settledAt.of_frame {L : List Field} (h : s.settledAt a) (frame : Frame L s t) (pc : .pc ∉ L)
    (mem : .mem ∉ L) : t.settledAt a := by
  have hpc : t.pc = s.pc := frame .pc pc
  have hmem : ∀ b, t.readByte b = s.readByte b := frame .mem mem
  simpa only [State.settledAt, hpc, hmem] using h

/-- The jump to itself leaves the state it found. -/
theorem cycle_of_settled (h : s.settledAt a) : cycle s = .next s := by
  obtain ⟨hpc, heven, hop⟩ := h
  have hpc_toNat : s.pc.toNat = a.toNat := by rw [hpc, addrOf_toNat]
  have hfetch : fetch s = .ok (encodeWord (.jp a)) := by
    refine fetch_eq_ok.2 ⟨?_, ?_⟩
    · have := a.isLt
      omega
    · rw [hpc_toNat, hop]
  calc cycle s
      = exec (.jp a) s := cycle_of_decoded hfetch (decodeWord_encodeWord _ rfl)
    _ = .next (s.setPc s.pc) := by rw [hpc]; rfl
    _ = .next s := rfl

theorem step_of_settled (h : s.settledAt a) (runs : s.runs) : step s = .next s.loaded.afterCycle :=
  step_of_cycle runs (cycle_of_settled (h.of_frame s.loaded_frame (by decide) (by decide)))

/-- With no frame to show, what follows a cycle writes the timers, DBG and the notifications. -/
theorem State.afterCycle_frame_of_fr (h : s.fr = false) : Frame [.dt, .st, .dbg, .out] s s.afterCycle := by
  have fr : s.afterCycle.fr = s.fr := h.symm
  simp [frame_iff, State.readByte, fr]

/-- What an iteration of a settled run may change. -/
theorem afterCycle_loaded_frame (fr : s.fr = false) :
    Frame [.dt, .st, .dbg, .env, .inputs, .drawn, .out] s s.loaded.afterCycle := by
  have loaded_fr : s.loaded.fr = false := (s.loaded_frame .fr (by decide)).trans fr
  exact (s.loaded_frame.mono (by simp)).trans ((State.afterCycle_frame_of_fr loaded_fr).mono (by simp))

/-- A due tick is one off a timer. -/
theorem sub_toNat_eq_ite (n : Nat) (due : Bool) : n - due.toNat = if due = true then n - 1 else n := by
  cases due <;> rfl

/-- Of what follows a cycle only the tone counts as a beep. -/
theorem State.count_beep_afterCycle (s : State) : s.afterCycle.out.count .beep =
    s.out.count .beep + if s.inputs.tickDue = true ∧ s.st = 1 then 1 else 0 := by
  have frame : (if s.fr = true then [OutEvent.frameReady s.fb] else []).count .beep = 0 := by split <;> rfl
  have tone : (if s.inputs.tickDue = true ∧ s.st = 1 then [OutEvent.beep] else []).count .beep =
      if s.inputs.tickDue = true ∧ s.st = 1 then 1 else 0 := by split <;> rfl
  have periodic : (if s.inputs.ptickDue = true then [OutEvent.periodicTick] else []).count .beep = 0 := by
    split <;> rfl
  rw [State.afterCycle_out, List.count_append, List.count_append, List.count_append, frame, tone, periodic]
  omega

end

/-- Settles O52: the cycle leaves its state, and what follows it reports nothing. -/
theorem settledRunStaysSettled : Obligations.SettledRunStaysSettled := by
  unfold Obligations.SettledRunStaysSettled
  intro s a settled runs fr
  have frame := afterCycle_loaded_frame fr
  have out : s.loaded.out = s.out := s.loaded_frame .out (by decide)
  refine ⟨_, step_of_settled settled runs, settled.of_frame frame (by decide) (by decide), frame, ?_⟩
  rw [← out]
  exact s.loaded.afterCycle_emits

/-- One scheduled iteration of a settled run: each timer goes down by the tick, if one was due, and the tone sounds when that
takes ST from 1 to 0. -/
theorem step_of_settled_scheduled {s : State} {a : Addr12} {d : Draw} {rest : List EnvEvent} (settled : s.settledAt a)
    (running : s.dbg = .running) (fr : s.fr = false) (henv : s.env = .iterate d :: rest) :
    ∃ t, step s = .next t ∧ t.settledAt a ∧ t.dbg = .running ∧ t.fr = false ∧ t.env = rest ∧
      t.dt.toNat = s.dt.toNat - d.tickDue.toNat ∧ t.st.toNat = s.st.toNat - d.tickDue.toNat ∧
      t.out.count .beep = s.out.count .beep + if d.tickDue = true ∧ s.st = 1 then 1 else 0 := by
  have runs : s.runs := ⟨by simp [henv], by simp [running]⟩
  have settled' := settled.of_frame (afterCycle_loaded_frame fr) (by decide) (by decide)
  have loaded : s.loaded = (s.scheduled s.dbg rest).withInputs d := by rw [State.loaded, henv]; rfl
  have beeps := s.loaded.count_beep_afterCycle
  obtain ⟨fr', dt, st, dbg, -⟩ := afterCycleEffects s.loaded
  rw [State.loaded_dbg, running] at dbg
  rw [loaded] at dt st beeps
  refine ⟨_, step_of_settled settled runs, settled', dbg, fr', by rw [loaded]; rfl, ?dt, ?st, ?beeps⟩
  all_goals rw [loaded]
  case dt => rw [dt, sub_toNat_eq_ite]; rfl
  case st => rw [st, sub_toNat_eq_ite]; rfl
  case beeps => exact beeps

/-- ST reaches 0 within one iteration and `n` ticks more exactly if it does so in that iteration or in those ticks, never in
both. -/
theorem tone_first_or_later (due : Bool) (st n : Nat) :
    ((if due = true ∧ st = 1 then 1 else 0) + if 0 < st - due.toNat ∧ st - due.toNat ≤ n then 1 else 0) =
      if 0 < st ∧ st ≤ due.toNat + n then 1 else 0 := by
  cases due with
  | false => simp
  | true =>
    by_cases h : st = 1
    · simp [h]
    · have later : 0 < st - 1 ∧ st - 1 ≤ n ↔ 0 < st ∧ st ≤ 1 + n := by omega
      simp only [h, and_false, if_false, Nat.zero_add, Bool.toNat_true, later]

/-- Settles O53: by induction on the iterations. The run reaches ST = 0 in the first of them, or ST - 1 = 0 in the others. -/
theorem timersCountTheTicks : Obligations.TimersCountTheTicks := by
  unfold Obligations.TimersCountTheTicks
  intro ds
  induction ds with
  | nil =>
    intro s a _ _ _ _
    refine ⟨s, rfl, rfl, rfl, ?_⟩
    rw [if_neg (by simp only [List.filter_nil, List.length_nil]; omega), Nat.add_zero]
  | cons d ds ih =>
    intro s a settled running fr henv
    obtain ⟨t, stepped, settled', running', fr', env', dt, st, beeps⟩ :=
      step_of_settled_scheduled settled running fr henv
    obtain ⟨u, ran, udt, ust, ubeeps⟩ := ih t a settled' running' fr' env'
    have ticks : ((d :: ds).filter (·.tickDue)).length = d.tickDue.toNat + (ds.filter (·.tickDue)).length := by
      cases hd : d.tickDue <;> simp [hd, Nat.add_comm]
    have one : s.st = 1 ↔ s.st.toNat = 1 := BitVec.toNat_inj.symm
    refine ⟨u, (run_succ ds.length stepped).trans ran, ?dt, ?st, ?beeps⟩
    case dt => rw [udt, dt, ticks, Nat.sub_sub]
    case st => rw [ust, st, ticks, Nat.sub_sub]
    case beeps =>
      simp only [ubeeps, beeps, st, ticks, one]
      rw [Nat.add_assoc, tone_first_or_later]

end Sys2Proof.Machine
end

section
/-! PROOF. O54: nothing reads ESR or the notifications. -/

namespace Sys2Proof.Machine

/-- `s` without its record of errors: all that a run cannot see. -/
def State.unreported (s : State) : State := { s with esr := 0, out := [] }

section
variable (s : State)

@[simp] theorem State.unreported_i : s.unreported.i = s.i := rfl
@[simp] theorem State.unreported_params : s.unreported.params = s.params := rfl
@[simp] theorem State.unreported_inputs : s.unreported.inputs = s.inputs := rfl
@[simp] theorem State.unreported_pressedKeys : s.unreported.pressedKeys = s.pressedKeys := rfl
@[simp] theorem fetch_unreported : fetch s.unreported = fetch s := rfl

theorem State.indexFlag_unreported (o : Bool) : s.unreported.indexFlag o = (s.indexFlag o).unreported := by
  unfold State.indexFlag
  rw [State.unreported_params]
  cases s.params.fx1eVfMode with
  | off => rfl
  | setOnly => cases o <;> rfl
  | setClear => rfl

theorem State.keySkip_unreported (x : Reg) (whenPressed : Bool) :
    (s.unreported.keySkip x whenPressed).unreported = (s.keySkip x whenPressed).unreported := by
  unfold State.keySkip
  rw [apply_dite State.unreported, apply_dite State.unreported]
  rfl

/-- No instruction reads the record. -/
theorem exec_unreported (i : Instr) :
    andThen (exec i s.unreported) State.unreported = andThen (exec i s) State.unreported := by
  cases i with
  | ret | call =>
    simp only [exec, execRet, execCall]
    rw [apply_dite (andThen · State.unreported), apply_dite (andThen · State.unreported)]
    rfl
  | skp x => exact congrArg Host.Outcome.next (s.keySkip_unreported x true)
  | sknp x => exact congrArg Host.Outcome.next (s.keySkip_unreported x false)
  | addI x =>
    exact congrArg (fun u => Host.Outcome.next (u.advance 2).unreported) (State.indexFlag_unreported (s.setI _) _)
  | drw | ldB | ldMemVx | ldVxMem =>
    simp only [exec, execDrw, execLdB, execLdMemVx, execLdVxMem, State.unreported_i]
    split <;> rfl
  | ldVxK x =>
    simp only [exec, execLdVxK, State.unreported_params, State.unreported_inputs, State.unreported_pressedKeys]
    cases pickKey s.params.keywaitPick s.inputs.pick s.pressedKeys <;> rfl
  | _ => rfl

/-- Nor does a cycle. -/
theorem cycle_unreported : andThen (cycle s.unreported) State.unreported = andThen (cycle s) State.unreported := by
  simp only [cycle, fetch_unreported, State.unreported_params]
  cases fetch s with
  | error bad => rfl
  | ok op =>
    simp only
    cases decodeWord s.params.strictLowNibble op with
    | error r => rfl
    | ok i => exact exec_unreported s i

/-- Nor does what follows a cycle: its notifications are appended to the record. -/
theorem State.afterCycle_unreported : s.unreported.afterCycle.unreported = s.afterCycle.unreported := rfl

theorem State.setKey_unreported (k value : Nat) :
    (s.unreported.setKey k value).unreported = (s.setKey k value).unreported := by
  unfold State.setKey
  split <;> rfl

/-- Nor does the host: a reset clears ESR and keeps the notifications as they are. -/
theorem State.hostEvent_unreported (e : HostEvent) :
    (s.unreported.hostEvent e).unreported = (s.hostEvent e).unreported := by
  cases e with
  | reset image =>
    cases image with
    | none => rfl
    | some bytes =>
      simp only [State.hostEvent, State.hostReset]
      split <;> rfl
  | keySet k => exact s.setKey_unreported k _
  | keyClear k => exact s.setKey_unreported k 0
  | pause | cont | step => rfl

theorem State.loaded_unreported : s.unreported.loaded = s.loaded.unreported := by
  rcases henv : s.env with - | ⟨e | d, rest⟩ <;> simp only [State.loaded, State.unreported, henv]

/-- Nor does an iteration. -/
theorem iteration_unreported :
    andThen (iteration s.unreported) State.unreported = andThen (iteration s) State.unreported := by
  have after (r : Result) : andThen (andThen r State.afterCycle) State.unreported =
      andThen (andThen (andThen r State.unreported) State.afterCycle) State.unreported := by
    cases r with
    | next u => exact congrArg Host.Outcome.next u.afterCycle_unreported.symm
    | fault | refused => rfl
  simp only [iteration]
  rw [apply_ite (andThen · State.unreported), apply_ite (andThen · State.unreported), after, after (cycle s),
    cycle_unreported]
  rfl

/-- Nor does a step. -/
theorem step_unreported : andThen (step s.unreported) State.unreported = andThen (step s) State.unreported := by
  by_cases host : ∃ e rest, s.env = .host e :: rest
  · obtain ⟨e, rest, henv⟩ := host
    rw [step_eq_host henv, step_eq_host (s := s.unreported) henv]
    exact congrArg Host.Outcome.next (State.hostEvent_unreported { s with env := rest } e)
  · have noHost : ∀ e rest, s.env ≠ .host e :: rest := fun e rest h => host ⟨e, rest, h⟩
    rw [step_eq_iteration noHost, step_eq_iteration (s := s.unreported) noHost, State.loaded_unreported]
    exact iteration_unreported s.loaded

end

section
variable {s t : State}

/-- States alike but for the record agree on every field outside it. -/
theorem frame_of_unreported_eq (h : s.unreported = t.unreported) : Frame [.esr, .out] s t := by
  simp only [State.unreported, State.mk.injEq] at h
  simp [frame_iff, State.readByte, h]

theorem step_of_unreported_eq (h : s.unreported = t.unreported) :
    ∃ s' t', step s = .next s' ∧ step t = .next t' ∧ s'.unreported = t'.unreported := by
  obtain ⟨s', hs, -⟩ := step_effect s
  obtain ⟨t', ht, -⟩ := step_effect t
  have alike : andThen (step s) State.unreported = andThen (step t) State.unreported := by
    rw [← step_unreported s, h, step_unreported t]
  rw [hs, ht] at alike
  exact ⟨s', t', hs, ht, Host.Outcome.next.inj alike⟩

theorem run_of_unreported_eq (n : Nat) (h : s.unreported = t.unreported) :
    ∃ s' t', Host.Core.run core n s = .next s' ∧ Host.Core.run core n t = .next t' ∧ s'.unreported = t'.unreported := by
  induction n generalizing s t with
  | zero => exact ⟨s, t, rfl, rfl, h⟩
  | succ n ih =>
    obtain ⟨s', t', hs, ht, h'⟩ := step_of_unreported_eq h
    obtain ⟨u, v, hu, hv, huv⟩ := ih h'
    exact ⟨u, v, (run_succ n hs).trans hu, (run_succ n ht).trans hv, huv⟩

end

/-- Settles O54: the two runs start alike but for the record, and every step keeps them so. -/
theorem errorsAreInvisibleToPrograms : Obligations.ErrorsAreInvisibleToPrograms := by
  unfold Obligations.ErrorsAreInvisibleToPrograms
  intro n s esr out
  have alike : s.unreported = State.unreported { s with esr := esr, out := out } := rfl
  obtain ⟨t, u, ht, hu, h⟩ := run_of_unreported_eq n alike
  exact ⟨t, u, ht, hu, frame_of_unreported_eq h⟩

end Sys2Proof.Machine
end
